-- ==== Sys2Proof/Word.lean ====
section
/-! DEFINITION. The bit-vector types of CRCV (00_scope.md R8: u8, u16, u32 and u64; R22: 7-bit register offsets). -/

namespace Sys2Proof

/-- A u8: one byte of a frame or of the CRC stream. -/
abbrev Byte := BitVec 8

/-- A u16: CRC values, FCNT, Asset, Checksum. -/
abbrev Half := BitVec 16

/-- A u32: a bus data word or a command word. -/
abbrev Word := BitVec 32

/-- A u64 or the raw pattern of an IEEE-754 binary64 (00_scope.md R12). -/
abbrev DWord := BitVec 64

/-- An offset in the 128-byte register window, 0x00 to 0x7F (10_state.md R22). -/
abbrev Offset := BitVec 7

end Sys2Proof
end

