-- ==== Sys2Proof/Syntax.lean ====
section
/-! DEFINITION. The operations of CRCV: what a host sends (30_encoding.md R70) and one constructor of `Instr` per row
of spec/opcode_table.json. -/

namespace Sys2Proof

/-- The frame variants A, B and C (00_scope.md R3): VALIDATE's operand and STATUS.RVAR. -/
inductive Variant where
  | a | b | c
  deriving DecidableEq, Repr

/-- Which of the two profile parameters is meant: CRC.INIT's operand and STATUS.CRCSEL (30_encoding.md R72). -/
inductive ProfileSel where
  | crcB | crcC
  deriving DecidableEq, Repr

/-- The direction of a bus access with its data: a read, or a write of a 32-bit value (00_scope.md R11). -/
inductive Dir where
  | rd
  | wr (data : Word)
  deriving DecidableEq, Repr

/-- The sizes of a bus access: 1, 2, 4 or 8 bytes (20_memory.md R53). Log entry 15. -/
inductive AccessSize where
  | byte | half | word | double
  deriving DecidableEq, Repr

/-- A bus access that reaches the window: `BusRead(off, size)` or `BusWrite(off, size, v32)` (00_scope.md R11). -/
structure Access where
  dir  : Dir
  off  : Offset
  size : AccessSize
  deriving DecidableEq, Repr

/-- One host operation in one of the two formats of the opcode table. `bus` is a bus access (format BUS). `cmd w` is
the write of the command word `w` to CMD, named by its command (format CMD): "Each command mnemonic is a shorthand for
one CMD write" (30_encoding.md R78). Log entry 7. -/
inductive Operation where
  | bus (a : Access)
  | cmd (w : Word)
  deriving DecidableEq, Repr

/-- The operations, one constructor per row of spec/opcode_table.json, in the table's order. -/
inductive Instr where
  -- format CMD (30_encoding.md R71)
  | crcInit (p : ProfileSel)
  | frameClear
  | validate (v : Variant)
  | clearErr
  | illegalCommandWord (w : Word)
  -- format BUS (30_encoding.md R74)
  | wrCmd (w : Word)
  | rdCmd
  | wrStatusIgnored (w : Word)
  | rdStatus
  | wrCrcData (w : Word)
  | rdCrcData
  | wrCrcValueIgnored (w : Word)
  | rdCrcValue
  | wrFrameData (w : Word)
  | rdFrameData
  | wrFrameCountIgnored (w : Word)
  | rdFrameCount
  | rdKeyHi
  | wrKeyHiIgnored (w : Word)
  | rdKeyLo
  | wrKeyLoIgnored (w : Word)
  | rdOperation
  | wrOperationIgnored (w : Word)
  | rdAsset
  | wrAssetIgnored (w : Word)
  | rdPriceHi
  | wrPriceHiIgnored (w : Word)
  | rdPriceLo
  | wrPriceLoIgnored (w : Word)
  | rdVolumeHi
  | wrVolumeHiIgnored (w : Word)
  | rdVolumeLo
  | wrVolumeLoIgnored (w : Word)
  | rdExpireHi
  | wrExpireHiIgnored (w : Word)
  | rdExpireLo
  | wrExpireLoIgnored (w : Word)
  | rdChecksum
  | wrChecksumIgnored (w : Word)
  /-- Row 0x18 with mask 0x7B: offsets 0x18 and 0x1C; `k` is offset bit 2. -/
  | reservedOffset18 (d : Dir) (k : BitVec 1)
  /-- Row 0x4C with mask 0x7F: offset 0x4C. -/
  | reservedOffset4C (d : Dir)
  /-- Row 0x50 with mask 0x73: offsets 0x50 to 0x5C; `k` is offset bits 3:2. -/
  | reservedOffset50 (d : Dir) (k : BitVec 2)
  /-- Row 0x60 with mask 0x63: offsets 0x60 to 0x7C; `k` is offset bits 4:2. -/
  | reservedOffset60 (d : Dir) (k : BitVec 3)
  /-- An access of size 1, 2 or 8, or at an offset that is no multiple of 4 (20_memory.md R53). -/
  | nonWordOrMisaligned (a : Access)
  deriving DecidableEq, Repr

end Sys2Proof
end

