-- ==== Sys2Proof/WellFormed.lean ====
section
/-! DEFINITION. Which terms of `Instr` are operations of the table. Operands are typed, so only two constructors need
a check: an illegal command word is illegal, and a rejected access is one that the admission check rejects. -/

namespace Sys2Proof

/-- `legal(w)` of 30_encoding.md R73. -/
def legal (w : Word) : Bool :=
  w.extractLsb' 10 22 == 0 &&
  ((w.extractLsb' 0 8 == 0x01 && (w.extractLsb' 8 2 == 1 || w.extractLsb' 8 2 == 2)) ||
   (w.extractLsb' 0 8 == 0x02 && w.extractLsb' 8 2 == 0) ||
   (w.extractLsb' 0 8 == 0x03 && (w.extractLsb' 8 2 == 0 || w.extractLsb' 8 2 == 1 || w.extractLsb' 8 2 == 2)) ||
   (w.extractLsb' 0 8 == 0x04 && w.extractLsb' 8 2 == 0))

/-- The admission check of 20_memory.md R53: four bytes at an offset that is a multiple of 4. -/
def Access.admitted (a : Access) : Bool :=
  a.size == .word && a.off.extractLsb' 0 2 == 0

/-- A well-formed operation: a term the opcode table has a row for. -/
def Instr.wellFormed : Instr → Bool
  | .illegalCommandWord w => !legal w
  | .nonWordOrMisaligned a => !a.admitted
  | .crcInit _ | .frameClear | .validate _ | .clearErr
  | .wrCmd _ | .rdCmd | .wrStatusIgnored _ | .rdStatus
  | .wrCrcData _ | .rdCrcData | .wrCrcValueIgnored _ | .rdCrcValue
  | .wrFrameData _ | .rdFrameData | .wrFrameCountIgnored _ | .rdFrameCount
  | .rdKeyHi | .wrKeyHiIgnored _ | .rdKeyLo | .wrKeyLoIgnored _
  | .rdOperation | .wrOperationIgnored _ | .rdAsset | .wrAssetIgnored _
  | .rdPriceHi | .wrPriceHiIgnored _ | .rdPriceLo | .wrPriceLoIgnored _
  | .rdVolumeHi | .wrVolumeHiIgnored _ | .rdVolumeLo | .wrVolumeLoIgnored _
  | .rdExpireHi | .wrExpireHiIgnored _ | .rdExpireLo | .wrExpireLoIgnored _
  | .rdChecksum | .wrChecksumIgnored _
  | .reservedOffset18 _ _ | .reservedOffset4C _ | .reservedOffset50 _ _ | .reservedOffset60 _ _ => true

end Sys2Proof
end

