-- ==== Sys2Proof/Decode.lean ====
section
/-! DEFINITION. The decoder, written from the opcode table and total on every access and every command word, and the
encoder beside it. What is illegal or reserved is a row of the table, so it decodes to its own constructor. -/

namespace Sys2Proof

/-! ### Fields of a command word (30_encoding.md R71) -/

/-- OPC, bits 7:0. -/
def cmdOpc (w : Word) : BitVec 8 := w.extractLsb' 0 8

/-- VAR, bits 9:8. -/
def cmdVar (w : Word) : BitVec 2 := w.extractLsb' 8 2

/-- ZERO, bits 31:10. -/
def cmdZero (w : Word) : BitVec 22 := w.extractLsb' 10 22

/-- What a command word asks for (30_encoding.md R71, R73). -/
inductive Command where
  | crcInit (p : ProfileSel)
  | frameClear
  | validate (v : Variant)
  | clearErr
  | illegal (w : Word)
  deriving DecidableEq, Repr

/-- The row of the opcode table that a command belongs to. -/
def Command.toInstr : Command → Instr
  | .crcInit p => .crcInit p
  | .frameClear => .frameClear
  | .validate v => .validate v
  | .clearErr => .clearErr
  | .illegal w => .illegalCommandWord w

/-- CRC.INIT's operand (30_encoding.md R72): 1 names `CRC_B`, 2 names `CRC_C`. -/
def profileOfVar (var : BitVec 2) : Option ProfileSel :=
  if var = 1 then some .crcB else if var = 2 then some .crcC else none

/-- VALIDATE's operand (30_encoding.md R72): 0, 1, 2 name the variants A, B, C. -/
def variantOfVar (var : BitVec 2) : Option Variant :=
  if var = 0 then some .a else if var = 1 then some .b else if var = 2 then some .c else none

/-- A command that takes no operand is legal with VAR = 0 only (30_encoding.md R71). -/
def noOperand (c : Command) (var : BitVec 2) : Option Command :=
  if var = 0 then some c else none

/-- The commands of one opcode, by VAR (30_encoding.md R71). -/
def commandOf (opc : BitVec 8) (var : BitVec 2) : Option Command :=
  if opc = 0x01 then (profileOfVar var).map .crcInit
  else if opc = 0x02 then noOperand .frameClear var
  else if opc = 0x03 then (variantOfVar var).map .validate
  else if opc = 0x04 then noOperand .clearErr var
  else none

/-- The command decoder, total on all 2^32 words (30_encoding.md R73). -/
def decodeCommand (w : Word) : Command :=
  if cmdZero w = 0 then (commandOf (cmdOpc w) (cmdVar w)).getD (.illegal w) else .illegal w

/-! ### Bus accesses (30_encoding.md R74) -/

/-- W, the write bit of the table's key. -/
def Dir.writeBit : Dir → BitVec 1
  | .rd => 0
  | .wr _ => 1

/-- The data word of a write; a read has none. -/
def Dir.data : Dir → Word
  | .rd => 0
  | .wr w => w

/-- The key `K = W ++ off[6:0]` that selects a row of format BUS (30_encoding.md R74). -/
def Access.key (a : Access) : BitVec 8 := a.dir.writeBit ++ a.off

/-- One row of format BUS: it matches when `(K & mask) = pat`. -/
structure BusRow where
  mask  : BitVec 8
  pat   : BitVec 8
  build : Access → Instr

/-- `(K & mask) = match` (30_encoding.md R74). -/
def BusRow.hits (k : BitVec 8) (r : BusRow) : Bool := (k &&& r.mask) == r.pat

/-- A row that fixes the whole key. -/
def exactRow (k : BitVec 8) (build : Word → Instr) : BusRow :=
  { mask := 0xFF, pat := k, build := fun a => build a.dir.data }

/-- The rows of the registers at 0x00 to 0x14. -/
def controlRows : List BusRow :=
  [ exactRow 0x80 .wrCmd,
    exactRow 0x00 fun _ => .rdCmd,
    exactRow 0x84 .wrStatusIgnored,
    exactRow 0x04 fun _ => .rdStatus,
    exactRow 0x88 .wrCrcData,
    exactRow 0x08 fun _ => .rdCrcData,
    exactRow 0x8C .wrCrcValueIgnored,
    exactRow 0x0C fun _ => .rdCrcValue,
    exactRow 0x90 .wrFrameData,
    exactRow 0x10 fun _ => .rdFrameData,
    exactRow 0x94 .wrFrameCountIgnored,
    exactRow 0x14 fun _ => .rdFrameCount ]

/-- The rows of the result registers at 0x20 to 0x48. -/
def resultRows : List BusRow :=
  [ exactRow 0x20 fun _ => .rdKeyHi,
    exactRow 0xA0 .wrKeyHiIgnored,
    exactRow 0x24 fun _ => .rdKeyLo,
    exactRow 0xA4 .wrKeyLoIgnored,
    exactRow 0x28 fun _ => .rdOperation,
    exactRow 0xA8 .wrOperationIgnored,
    exactRow 0x2C fun _ => .rdAsset,
    exactRow 0xAC .wrAssetIgnored,
    exactRow 0x30 fun _ => .rdPriceHi,
    exactRow 0xB0 .wrPriceHiIgnored,
    exactRow 0x34 fun _ => .rdPriceLo,
    exactRow 0xB4 .wrPriceLoIgnored,
    exactRow 0x38 fun _ => .rdVolumeHi,
    exactRow 0xB8 .wrVolumeHiIgnored,
    exactRow 0x3C fun _ => .rdVolumeLo,
    exactRow 0xBC .wrVolumeLoIgnored,
    exactRow 0x40 fun _ => .rdExpireHi,
    exactRow 0xC0 .wrExpireHiIgnored,
    exactRow 0x44 fun _ => .rdExpireLo,
    exactRow 0xC4 .wrExpireLoIgnored,
    exactRow 0x48 fun _ => .rdChecksum,
    exactRow 0xC8 .wrChecksumIgnored ]

/-- The rows of the reserved offsets 0x18, 0x1C and 0x4C to 0x7C (10_state.md R37). The write bit is not in their
masks: a read and a write are both rejected. -/
def reservedRows : List BusRow :=
  [ { mask := 0x7B, pat := 0x18, build := fun a => .reservedOffset18 a.dir (a.off.extractLsb' 2 1) },
    { mask := 0x7F, pat := 0x4C, build := fun a => .reservedOffset4C a.dir },
    { mask := 0x73, pat := 0x50, build := fun a => .reservedOffset50 a.dir (a.off.extractLsb' 2 2) },
    { mask := 0x63, pat := 0x60, build := fun a => .reservedOffset60 a.dir (a.off.extractLsb' 2 3) } ]

/-- The rows of format BUS that a key selects. -/
def busTable : List BusRow := controlRows ++ resultRows ++ reservedRows

/-- The row that a key selects. -/
def busRow? (k : BitVec 8) : Option BusRow := busTable.find? (·.hits k)

/-- Decode one bus access: the admission check first, then the table (20_memory.md R53, 30_encoding.md R74). Every
admitted key has a row, so the last answer is the admission check's alone. -/
def decodeBus (a : Access) : Instr :=
  if a.admitted then
    match busRow? a.key with
    | some r => r.build a
    | none => .nonWordOrMisaligned a
  else .nonWordOrMisaligned a

/-- Decode a host operation in the format it is written in. -/
def decode : Operation → Instr
  | .bus a => decodeBus a
  | .cmd w => (decodeCommand w).toInstr

/-! ### The second level: a write to CMD is further decoded as a command word (30_encoding.md R70) -/

/-- The row whose rule is performed: that of the command word for a write to CMD, the row itself otherwise. -/
def Instr.resolve : Instr → Instr
  | .wrCmd w => (decodeCommand w).toInstr
  | i => i

/-- The word-sized write at offset 0x00, CMD. -/
def cmdWrite (w : Word) : Access := { dir := .wr w, off := 0x00, size := .word }

/-- The bus access an operation is (30_encoding.md R78: a command is one CMD write). -/
def Operation.access : Operation → Access
  | .bus a => a
  | .cmd w => cmdWrite w

/-! ### The table's numbering of an operation's bits -/

/-- The operation whose table bits are `w`: 8 bits are a key K of format BUS, with size 4 and, for a write, the data
word 0; 32 bits are a command word of format CMD. No row has another width. -/
def tableOperation (nbits w : Nat) : Option Operation :=
  if nbits = 8 ∧ w < 2 ^ 8 then
    let k := BitVec.ofNat 8 w
    some (.bus { dir := if k.msb then .wr 0 else .rd, off := k.extractLsb' 0 7, size := .word })
  else if nbits = 32 ∧ w < 2 ^ 32 then some (.cmd (BitVec.ofNat 32 w))
  else none

/-- What the decoder reads from an operation's table bits. -/
def decodeTableWord (nbits w : Nat) : Option Instr := (tableOperation nbits w).map decode

/-! ### The encoder -/

/-- CRC.INIT's VAR (30_encoding.md R72). -/
def ProfileSel.var : ProfileSel → BitVec 2
  | .crcB => 1
  | .crcC => 2

/-- VALIDATE's VAR (30_encoding.md R72). -/
def Variant.var : Variant → BitVec 2
  | .a => 0
  | .b => 1
  | .c => 2

/-- A command word from its fields (30_encoding.md R71). -/
def commandWord (opc : BitVec 8) (var : BitVec 2) : Word := (0 : BitVec 22) ++ var ++ opc

/-- A word-sized read. -/
def readAt (off : Offset) : Operation := .bus { dir := .rd, off := off, size := .word }

/-- A word-sized write. -/
def writeAt (off : Offset) (w : Word) : Operation := .bus { dir := .wr w, off := off, size := .word }

/-- A word-sized access in either direction. -/
def accessAt (off : Offset) (d : Dir) : Operation := .bus { dir := d, off := off, size := .word }

/-- The operation that a term of `Instr` stands for (30_encoding.md R71, R74). -/
def encode : Instr → Operation
  | .crcInit p => .cmd (commandWord 0x01 p.var)
  | .frameClear => .cmd (commandWord 0x02 0)
  | .validate v => .cmd (commandWord 0x03 v.var)
  | .clearErr => .cmd (commandWord 0x04 0)
  | .illegalCommandWord w => .cmd w
  | .wrCmd w => writeAt 0x00 w
  | .rdCmd => readAt 0x00
  | .wrStatusIgnored w => writeAt 0x04 w
  | .rdStatus => readAt 0x04
  | .wrCrcData w => writeAt 0x08 w
  | .rdCrcData => readAt 0x08
  | .wrCrcValueIgnored w => writeAt 0x0C w
  | .rdCrcValue => readAt 0x0C
  | .wrFrameData w => writeAt 0x10 w
  | .rdFrameData => readAt 0x10
  | .wrFrameCountIgnored w => writeAt 0x14 w
  | .rdFrameCount => readAt 0x14
  | .rdKeyHi => readAt 0x20
  | .wrKeyHiIgnored w => writeAt 0x20 w
  | .rdKeyLo => readAt 0x24
  | .wrKeyLoIgnored w => writeAt 0x24 w
  | .rdOperation => readAt 0x28
  | .wrOperationIgnored w => writeAt 0x28 w
  | .rdAsset => readAt 0x2C
  | .wrAssetIgnored w => writeAt 0x2C w
  | .rdPriceHi => readAt 0x30
  | .wrPriceHiIgnored w => writeAt 0x30 w
  | .rdPriceLo => readAt 0x34
  | .wrPriceLoIgnored w => writeAt 0x34 w
  | .rdVolumeHi => readAt 0x38
  | .wrVolumeHiIgnored w => writeAt 0x38 w
  | .rdVolumeLo => readAt 0x3C
  | .wrVolumeLoIgnored w => writeAt 0x3C w
  | .rdExpireHi => readAt 0x40
  | .wrExpireHiIgnored w => writeAt 0x40 w
  | .rdExpireLo => readAt 0x44
  | .wrExpireLoIgnored w => writeAt 0x44 w
  | .rdChecksum => readAt 0x48
  | .wrChecksumIgnored w => writeAt 0x48 w
  | .reservedOffset18 d k => accessAt ((0b0011 : BitVec 4) ++ k ++ (0 : BitVec 2)) d
  | .reservedOffset4C d => accessAt 0x4C d
  | .reservedOffset50 d k => accessAt ((0b101 : BitVec 3) ++ k ++ (0 : BitVec 2)) d
  | .reservedOffset60 d k => accessAt ((0b11 : BitVec 2) ++ k ++ (0 : BitVec 2)) d
  | .nonWordOrMisaligned a => .bus a

end Sys2Proof
end

