-- ==== Sys2Proof/Config.lean ====
section
/-! DEFINITION. What a build of CRCV fixes: the parameters of 00_scope.md R6.
The profiles and REJECT_NAN are a plain record that State carries, so that a statement about every state holds
for every choice of them; BASE has no default in the spec and is an opaque constant. -/

namespace Sys2Proof

/-- A CRC-16 profile (40_crc.md R100): the five parameters that fix a CRC-16 algorithm. -/
structure Profile where
  poly   : Half
  init   : Half
  refin  : Bool
  refout : Bool
  xorout : Half
  deriving DecidableEq, Repr

/-- `CCITT_FALSE` of 00_scope.md R6. -/
def Profile.ccittFalse : Profile :=
  { poly := 0x1021, init := 0xFFFF, refin := false, refout := false, xorout := 0x0000 }

/-- The parameters that change what CRCV computes (00_scope.md R6): `CRC_B`, `CRC_C` and `REJECT_NAN`.
They are fixed when the hardware is built: no access and no reset changes them (40_crc.md R100). -/
structure Config where
  crcB      : Profile
  crcC      : Profile
  rejectNan : Bool
  deriving DecidableEq, Repr

/-- The spec's defaults (00_scope.md R6; 92_eei_decisions.md D6, D11). Log entry 1. -/
def Config.default : Config :=
  { crcB := .ccittFalse, crcC := .ccittFalse, rejectNan := false }

/-- What a model may assume of the parameters: `poly != 0` of each profile (40_crc.md R100). -/
abbrev Config.PolysNonzero (c : Config) : Prop :=
  c.crcB.poly ≠ 0 ∧ c.crcC.poly ≠ 0

/-- Which block of 128 bus addresses holds the window. OPEN (20_memory.md R51): no value is given. Log entry 9. -/
opaque Config.baseBlock : Nat

/-- `BASE`, the bus address of offset 0x00, aligned to 128 bytes (20_memory.md R50, R51). -/
def Config.base : Nat := 128 * Config.baseBlock

/-- `FB_DEPTH` (00_scope.md R6): the capacity of the frame buffer in bytes. -/
abbrev fbDepth : Nat := 37

/-- `OP_MAX` (00_scope.md R6): the largest valid Operation. -/
def opMax : Byte := 127

/-- `EXPIRE_MIN` (00_scope.md R6): the smallest valid Expire, 2000-01-01T00:00:00Z in epoch seconds. -/
def expireMin : DWord := 946684800

end Sys2Proof
end

