-- ==== Sys2Proof/Machine/Crc.lean ====
section
/-! DEFINITION. The CRC-16 function of 40_crc.md R101: the reference algorithm, MSB first, with an unreflected
register. R102: "A model uses rule R101 directly." -/

namespace Sys2Proof.Machine

/-- `rev8`: a byte with its bits in the opposite order (R101). -/
def rev8 (b : Byte) : Byte := b.reverse

/-- `rev16`: a 16-bit value with its bits in the opposite order (R101). -/
def rev16 (c : Half) : Half := c.reverse

/-- One turn of the loop in `crc_step` (R101): shift left and, if bit 15 was 1, exclusive-or the polynomial. -/
def crcShift (poly c : Half) : Half := if c.msb then (c <<< 1) ^^^ poly else c <<< 1

/-- `n` turns of the loop. -/
def crcShifts (poly : Half) : Nat → Half → Half
  | 0, c => c
  | n + 1, c => crcShifts poly n (crcShift poly c)

/-- `d` in `crc_step` (R101): the byte, in the opposite bit order if the profile reflects its input. -/
def crcInput (p : Profile) (b : Byte) : Byte := if p.refin then rev8 b else b

/-- `crc_step(P, c, b)` (R101). -/
def crcStep (p : Profile) (c : Half) (b : Byte) : Half :=
  crcShifts p.poly 8 (c ^^^ ((crcInput p b).zeroExtend 16 <<< 8))

/-- `crc_final(P, c)` (R101). -/
def crcFinal (p : Profile) (c : Half) : Half := (if p.refout then rev16 c else c) ^^^ p.xorout

/-- `crc16(P, B)` (R101): bytes in index order from the profile's initial value. -/
def crc16 (p : Profile) (bs : List Byte) : Half := crcFinal p (bs.foldl (crcStep p) p.init)

end Sys2Proof.Machine
end

