-- ==== Sys2Proof/Machine/State.lean ====
section
/-! DEFINITION. The state of CRCV as plain data, the reasons a step could stop, and the state after reset. -/

namespace Sys2Proof.Machine

/-- The legal values of STATUS.RESULT (10_state.md R24, 60_exceptions.md R202). Code 0x6 (`EncodeFailure`) and codes
0x7 to 0xE are never produced (R203) and have no constructor. Log entry 10. -/
inductive ResultCode where
  | ok | invalidLength | checksumMismatch | negativeAmount | invalidOperation | invalidExpiration | noResult
  deriving DecidableEq, Repr

/-- The frame buffer FB: 37 bytes, indices 0 to 36 (10_state.md R36). -/
abbrev FrameBuf := Vector Byte fbDepth

/-- The seven result registers R_KEY to R_CSUM (10_state.md R29 to R34, R40): a decoded Packet (00_scope.md R14).
VALIDATE writes them together (42_validate.md R159). -/
structure Fields where
  /-- R_KEY, opaque (R29). -/
  key    : DWord
  /-- R_OP (R30). -/
  op     : Byte
  /-- R_ASSET (R31). -/
  asset  : Half
  /-- R_PRICE, raw binary64 (R32). -/
  price  : DWord
  /-- R_VOLUME, raw binary64 (R33). -/
  volume : DWord
  /-- R_EXPIRE, epoch seconds (R34). -/
  expire : DWord
  /-- R_CSUM (R40). -/
  csum   : Half
  deriving DecidableEq, Repr

/-- Every result register 0: their value after reset (R38) and after a failed VALIDATE (42_validate.md R159). -/
def Fields.zero : Fields :=
  { key := 0, op := 0, asset := 0, price := 0, volume := 0, expire := 0, csum := 0 }

/-- How the last access ended, as the host sees it (00_scope.md R11). The model's own field; log entry 3. -/
inductive Response where
  /-- No access has been taken since reset. -/
  | idle
  /-- OKAY, for a write. -/
  | okay
  /-- OKAY with the value read. -/
  | okayData (v : Word)
  /-- BUSERR; a read returns no data (60_exceptions.md R200). -/
  | busErr
  deriving DecidableEq, Repr

/-- What reaches CRCV from outside: a host operation or the platform's reset (70_reset_and_hazards.md R230). -/
inductive HostEvent where
  | op (o : Operation)
  | reset
  deriving DecidableEq, Repr

/-- The state of CRCV (10_state.md R38), with three fields of the model's own at the end. -/
structure State where
  /-- CRC_ACC, the running CRC before final reflection and exclusive-or (R35). -/
  crcAcc   : Half
  /-- STATUS.CRCSEL (R24, R35). -/
  crcSel   : ProfileSel
  /-- FCNT, bytes pushed since the last FRAME.CLEAR or reset, saturating (R28). -/
  fcnt     : Half
  /-- FB, the frame buffer (R36). -/
  fb       : FrameBuf
  /-- STATUS.RESULT (R24). -/
  result   : ResultCode
  /-- STATUS.RVAR (R24). -/
  rvar     : Variant
  /-- STATUS.CMDERR, sticky (R24). -/
  cmdErr   : Bool
  /-- The result registers (R29 to R34, R40). -/
  res      : Fields
  /-- Model's own: the build's parameters, which nothing writes (log entry 1). -/
  cfg      : Config
  /-- Model's own: the host events not yet taken, in arrival order (log entry 2). -/
  pending  : List HostEvent
  /-- Model's own: the response to the last access taken (log entry 3). -/
  response : Response
  deriving DecidableEq, Repr

/-- No access stops CRCV: a bus error is a response and a bad command a sticky flag (60_exceptions.md R200, R201,
R206), so there is no fault to name. Log entry 13. -/
inductive Fault where
  deriving DecidableEq, Repr

/-- Why an operation has no meaning in the model. -/
inductive Refusal where
  /-- Raised only by an arm of `exec` for an operation that the model leaves out; no arm does. Safe: nothing can be
  proved of what such an operation does. -/
  | notModelled (mnemonic : String)
  deriving DecidableEq, Repr

/-- Every element at its reset value (10_state.md R38, 70_reset_and_hazards.md R230), for a build with parameters `cfg`
and for whatever bytes the frame buffer holds, which reset does not change (R36). -/
def State.afterReset (cfg : Config) (fb : FrameBuf) : State :=
  { crcAcc := cfg.crcB.init, crcSel := .crcB, fcnt := 0, fb := fb, result := .noResult, rvar := .a, cmdErr := false,
    res := .zero, cfg := cfg, pending := [], response := .idle }

/-- The machine right after reset: the spec's default parameters (00_scope.md R6; log entry 1), nothing pending, and a
frame buffer of zeros, for which the spec gives no value (R36, R38; log entry 5). -/
def State.reset : State := State.afterReset .default (Vector.replicate fbDepth 0)

end Sys2Proof.Machine
end

