-- ==== Sys2Proof/Machine/Operands.lean ====
section
/-! DEFINITION. The operand forms: the byte of a data write, the profile a selector names, and the big-endian fields of
a frame. -/

namespace Sys2Proof.Machine

/-- The byte operand `w[7:0]` of a write to CRC_DATA or FRAME_DATA; bits 31:8 are ignored (10_state.md R25, R27). -/
def byteOperand (w : Word) : Byte := w.extractLsb' 0 8

/-- `profile(VAR)` (30_encoding.md R72). -/
def profileOf (cfg : Config) : ProfileSel → Profile
  | .crcB => cfg.crcB
  | .crcC => cfg.crcC

/-- P of 40_crc.md R104 and R105: the profile that CRCSEL selects. -/
def State.profile (s : State) : Profile := profileOf s.cfg s.crcSel

/-- `L(v)`, the frame length of a variant (42_validate.md R151). -/
def frameLen : Variant → Nat
  | .a => 26
  | .b => 28
  | .c => 37

/-- The profile `P_v` of a variant's checksum; A has none (42_validate.md R151, R156). -/
def checksumProfile (cfg : Config) : Variant → Option Profile
  | .a => none
  | .b => some cfg.crcB
  | .c => some cfg.crcC

/-- `be_2(FB, off)` (00_scope.md R10): the byte at the lower index is the more significant one. -/
def be2 (fb : FrameBuf) (off : Nat) (h : off + 1 < fbDepth := by decide) : Half := fb[off] ++ fb[off + 1]

/-- `be_8(FB, off)` (00_scope.md R10). -/
def be8 (fb : FrameBuf) (off : Nat) (h : off + 7 < fbDepth := by decide) : DWord :=
  fb[off] ++ fb[off + 1] ++ fb[off + 2] ++ fb[off + 3] ++ fb[off + 4] ++ fb[off + 5] ++ fb[off + 6] ++ fb[off + 7]

/-- The bytes `FB[0..n)` in index order. -/
def frameBytes (fb : FrameBuf) (n : Nat) : List Byte := fb.toList.take n

/-- The checksum field of a frame of variant B or C: its last two bytes, big-endian (30_encoding.md R77). Variant A has
none. -/
def checksumField (fb : FrameBuf) : Variant → Half
  | .a => 0
  | .b => be2 fb 26
  | .c => be2 fb 35

end Sys2Proof.Machine
end

