-- ==== Sys2Proof/Machine/Ops.lean ====
section
/-! DEFINITION. The named operations on the state: taking the next host event, answering an access, the two errors,
reset, and every register write. The meanings of the instructions are written with these. CRCV has no trap: an error
saves no state and transfers no control, and there is no return from one (60_exceptions.md R206). -/

namespace Sys2Proof.Machine

/-! ### Host events -/

/-- The next host event in arrival order (20_memory.md R60) and the state with it taken; none when nothing arrives. -/
def fetch (s : State) : Option (HostEvent × State) :=
  match s.pending with
  | [] => none
  | e :: rest => some (e, { s with pending := rest })

/-- The state with an event to take next. -/
def arrive (e : HostEvent) (s : State) : State := { s with pending := e :: s.pending }

/-- The platform's reset (70_reset_and_hazards.md R230): every element takes its reset value but the frame buffer,
which keeps its bytes (10_state.md R36). The parameters and the events still to come are not CRCV's to change. Log
entry 6. -/
def platformReset (s : State) : State := { State.afterReset s.cfg s.fb with pending := s.pending }

/-! ### How an access ends -/

/-- A write ends OKAY. -/
def okay (s : State) : State := { s with response := .okay }

/-- A read ends OKAY with a value; it changes no state of CRCV (20_memory.md R59). -/
def answer (v : Word) (s : State) : State := { s with response := .okayData v }

/-- `raise BusError()` (60_exceptions.md R200): the access ends BUSERR and changes no state of CRCV. -/
def raiseBusError (s : State) : State := { s with response := .busErr }

/-- `raise CmdError()` (60_exceptions.md R201): `CMDERR <- 1`, nothing else changes, and the access ends OKAY. -/
def raiseCmdError (s : State) : State := okay { s with cmdErr := true }

/-! ### Register writes -/

/-- `CRC_ACC <- c` with CRCSEL as given (40_crc.md R103). -/
def setCrc (sel : ProfileSel) (c : Half) (s : State) : State := { s with crcSel := sel, crcAcc := c }

/-- `CRC_ACC <- crc_step(P, CRC_ACC, b)` (40_crc.md R104). -/
def feedByte (b : Byte) (s : State) : State := { s with crcAcc := crcStep s.profile s.crcAcc b }

/-- `FCNT <- 0` (41_frame_buffer.md R130). -/
def clearFrame (s : State) : State := { s with fcnt := 0 }

/-- `if FCNT < FB_DEPTH: FB[FCNT] <- b` (41_frame_buffer.md R131). -/
def storeByte (fb : FrameBuf) (fcnt : Half) (b : Byte) : FrameBuf :=
  if h : fcnt.toNat < fbDepth then fb.set fcnt.toNat b h else fb

/-- `if FCNT < 0xFFFF: FCNT <- FCNT + 1`, saturating (41_frame_buffer.md R131). -/
def countByte (fcnt : Half) : Half := if fcnt < 0xFFFF then fcnt + 1 else fcnt

/-- A push: the byte is stored while there is room and counted until the counter saturates (41_frame_buffer.md R131). -/
def pushByte (b : Byte) (s : State) : State :=
  { s with fb := storeByte s.fb s.fcnt b, fcnt := countByte s.fcnt }

/-- `CMDERR <- 0` (42_validate.md R162). -/
def clearCmdErr (s : State) : State := { s with cmdErr := false }

/-- RESULT, RVAR and all result registers at once (42_validate.md R159, R160). -/
def setOutcome (code : ResultCode) (v : Variant) (f : Fields) (s : State) : State :=
  { s with result := code, rvar := v, res := f }

end Sys2Proof.Machine
end

