-- ==== Sys2Proof/Machine/BusError.lean ====
section
/-! DEFINITION. The accesses that end in a bus error, in either direction (60_exceptions.md R200). -/

namespace Sys2Proof.Machine

open Host

/-- An access to the reserved offset 0x18 or 0x1C (60_exceptions.md R200, cause 3). -/
def execReservedOffset18 (_d : Dir) (_k : BitVec 1) (s : State) : Outcome State Fault Refusal :=
  .next (raiseBusError s)

/-- An access to the reserved offset 0x4C (60_exceptions.md R200, cause 3). -/
def execReservedOffset4C (_d : Dir) (s : State) : Outcome State Fault Refusal :=
  .next (raiseBusError s)

/-- An access to an offset 0x50 to 0x5C, which is reserved (60_exceptions.md R200, cause 3). -/
def execReservedOffset50 (_d : Dir) (_k : BitVec 2) (s : State) : Outcome State Fault Refusal :=
  .next (raiseBusError s)

/-- An access to an offset 0x60 to 0x7C, which is reserved (60_exceptions.md R200, cause 3). -/
def execReservedOffset60 (_d : Dir) (_k : BitVec 3) (s : State) : Outcome State Fault Refusal :=
  .next (raiseBusError s)

/-- An access of size 1, 2 or 8 or at a misaligned offset (60_exceptions.md R200, causes 1 and 2). -/
def execNonWordOrMisaligned (_a : Access) (s : State) : Outcome State Fault Refusal :=
  .next (raiseBusError s)

end Sys2Proof.Machine
end

