-- ==== Sys2Proof/Machine/Validate.lean ====
section
/-! DEFINITION. The validation of 42_validate.md R150 to R159 as one pure function of the variant, FCNT, the frame
buffer and the parameters (10_state.md R39). -/

namespace Sys2Proof.Machine

/-! ### Predicates on field values -/

/-- `isNaN(x)` (R153): exponent all ones and a fraction that is not 0. -/
def isNaN (x : DWord) : Bool := x.extractLsb' 52 11 == 0x7FF && x.extractLsb' 0 52 != 0

/-- `isNeg(x)` (R153): the IEEE-754 ordered comparison x < +0.0 on the bit pattern. -/
def isNeg (x : DWord) : Bool := x.msb && x.extractLsb' 0 63 != 0 && !isNaN x

/-- `negAmount(x)` (R153). -/
def negAmount (rejectNan : Bool) (x : DWord) : Bool := isNeg x || (rejectNan && isNaN x)

/-- `badOp(op)` (R154). -/
def badOp (op : Byte) : Bool := opMax < op

/-- `badExpire(e)` (R154), an unsigned comparison. -/
def badExpire (e : DWord) : Bool := e < expireMin

/-! ### The steps of the decode -/

/-- The field parse (R152) by the offsets of 30_encoding.md R76. Fields that a variant lacks are 0. -/
def parse (v : Variant) (fb : FrameBuf) : Fields :=
  match v with
  | .a | .b =>
    { key := be8 fb 0, op := fb[8], asset := fb[9].zeroExtend 16, price := be8 fb 10, volume := be8 fb 18,
      expire := 0, csum := checksumField fb v }
  | .c =>
    { key := be8 fb 0, op := fb[8], asset := be2 fb 9, price := be8 fb 11, volume := be8 fb 19,
      expire := be8 fb 27, csum := checksumField fb v }

/-- The checksum check (R156): the received field differs from the CRC of every byte before it. Variant A has no
checksum to fail. -/
def badChecksum (cfg : Config) (v : Variant) (fb : FrameBuf) : Bool :=
  match checksumProfile cfg v with
  | none => false
  | some p => checksumField fb v != crc16 p (frameBytes fb (frameLen v - 2))

/-- The field-range checks in their order (R150 step 4, R157). -/
def checkFields (cfg : Config) (v : Variant) (f : Fields) : ResultCode :=
  if negAmount cfg.rejectNan f.price || negAmount cfg.rejectNan f.volume then .negativeAmount
  else if badOp f.op then .invalidOperation
  else if v = .c && badExpire f.expire then .invalidExpiration
  else .ok

/-- The result code of `validate(v, FCNT, FB)` (R157): the first failing step decides (R158). -/
def validateCode (cfg : Config) (v : Variant) (fcnt : Half) (fb : FrameBuf) : ResultCode :=
  if fcnt.toNat ≠ frameLen v then .invalidLength
  else if badChecksum cfg v fb then .checksumMismatch
  else checkFields cfg v (parse v fb)

/-- The result registers after `validate(v, FCNT, FB)`: all of the frame's fields or all 0 (R159, R160). -/
def validateFields (cfg : Config) (v : Variant) (fcnt : Half) (fb : FrameBuf) : Fields :=
  if validateCode cfg v fcnt fb = .ok then parse v fb else .zero

end Sys2Proof.Machine
end

