-- ==== Sys2Proof/Machine/Command.lean ====
section
/-! DEFINITION. The commands, and the write to CMD that runs them (30_encoding.md R73). -/

namespace Sys2Proof.Machine

open Host

/-- CRC.INIT (40_crc.md R103): select the profile and start from its initial value. -/
def execCrcInit (p : ProfileSel) (s : State) : Outcome State Fault Refusal :=
  .next (okay (setCrc p (profileOf s.cfg p).init s))

/-- FRAME.CLEAR (41_frame_buffer.md R130). -/
def execFrameClear (s : State) : Outcome State Fault Refusal :=
  .next (okay (clearFrame s))

/-- VALIDATE (42_validate.md R160): a completed VALIDATE, whatever its result code, ends OKAY. -/
def execValidate (v : Variant) (s : State) : Outcome State Fault Refusal :=
  .next (okay (setOutcome (validateCode s.cfg v s.fcnt s.fb) v (validateFields s.cfg v s.fcnt s.fb) s))

/-- CLEAR.ERR (42_validate.md R162). -/
def execClearErr (s : State) : Outcome State Fault Refusal :=
  .next (okay (clearCmdErr s))

/-- An illegal command word (60_exceptions.md R201): no record of the word is kept. -/
def execIllegalCommandWord (_w : Word) (s : State) : Outcome State Fault Refusal :=
  .next (raiseCmdError s)

/-- WR CMD (30_encoding.md R73): decode the word and perform the rule of its command. -/
def execWrCmd (w : Word) (s : State) : Outcome State Fault Refusal :=
  match decodeCommand w with
  | .crcInit p => execCrcInit p s
  | .frameClear => execFrameClear s
  | .validate v => execValidate v s
  | .clearErr => execClearErr s
  | .illegal w' => execIllegalCommandWord w' s

end Sys2Proof.Machine
end

