-- ==== Sys2Proof/Machine/DataPort.lean ====
section
/-! DEFINITION. The writes that carry one byte each (20_memory.md R55). -/

namespace Sys2Proof.Machine

open Host

/-- WR CRC_DATA (40_crc.md R104): feed one byte to the generator. -/
def execWrCrcData (w : Word) (s : State) : Outcome State Fault Refusal :=
  .next (okay (feedByte (byteOperand w) s))

/-- WR FRAME_DATA (41_frame_buffer.md R131): push one byte into the frame buffer. -/
def execWrFrameData (w : Word) (s : State) : Outcome State Fault Refusal :=
  .next (okay (pushByte (byteOperand w) s))

end Sys2Proof.Machine
end

