-- ==== Sys2Proof/Machine/IgnoredWrite.lean ====
section
/-! DEFINITION. The writes to read-only registers: answered OKAY, no state changed (42_validate.md R183). -/

namespace Sys2Proof.Machine

open Host

/-- WR STATUS, read-only: ignored (42_validate.md R183). It clears neither RESULT nor CMDERR. -/
def execWrStatusIgnored (_w : Word) (s : State) : Outcome State Fault Refusal :=
  .next (okay s)

/-- WR CRC_VALUE, read-only: ignored (42_validate.md R183). -/
def execWrCrcValueIgnored (_w : Word) (s : State) : Outcome State Fault Refusal :=
  .next (okay s)

/-- WR FRAME_COUNT, read-only: ignored (42_validate.md R183). -/
def execWrFrameCountIgnored (_w : Word) (s : State) : Outcome State Fault Refusal :=
  .next (okay s)

/-- WR KEY_HI, read-only: ignored (42_validate.md R183). -/
def execWrKeyHiIgnored (_w : Word) (s : State) : Outcome State Fault Refusal :=
  .next (okay s)

/-- WR KEY_LO, read-only: ignored (42_validate.md R183). -/
def execWrKeyLoIgnored (_w : Word) (s : State) : Outcome State Fault Refusal :=
  .next (okay s)

/-- WR OPERATION, read-only: ignored (42_validate.md R183). -/
def execWrOperationIgnored (_w : Word) (s : State) : Outcome State Fault Refusal :=
  .next (okay s)

/-- WR ASSET, read-only: ignored (42_validate.md R183). -/
def execWrAssetIgnored (_w : Word) (s : State) : Outcome State Fault Refusal :=
  .next (okay s)

/-- WR PRICE_HI, read-only: ignored (42_validate.md R183). -/
def execWrPriceHiIgnored (_w : Word) (s : State) : Outcome State Fault Refusal :=
  .next (okay s)

/-- WR PRICE_LO, read-only: ignored (42_validate.md R183). -/
def execWrPriceLoIgnored (_w : Word) (s : State) : Outcome State Fault Refusal :=
  .next (okay s)

/-- WR VOLUME_HI, read-only: ignored (42_validate.md R183). -/
def execWrVolumeHiIgnored (_w : Word) (s : State) : Outcome State Fault Refusal :=
  .next (okay s)

/-- WR VOLUME_LO, read-only: ignored (42_validate.md R183). -/
def execWrVolumeLoIgnored (_w : Word) (s : State) : Outcome State Fault Refusal :=
  .next (okay s)

/-- WR EXPIRE_HI, read-only: ignored (42_validate.md R183). -/
def execWrExpireHiIgnored (_w : Word) (s : State) : Outcome State Fault Refusal :=
  .next (okay s)

/-- WR EXPIRE_LO, read-only: ignored (42_validate.md R183). -/
def execWrExpireLoIgnored (_w : Word) (s : State) : Outcome State Fault Refusal :=
  .next (okay s)

/-- WR CHECKSUM, read-only: ignored (42_validate.md R183). -/
def execWrChecksumIgnored (_w : Word) (s : State) : Outcome State Fault Refusal :=
  .next (okay s)

end Sys2Proof.Machine
end

