-- ==== Sys2Proof/Machine/Flags.lean ====
section
/-! DEFINITION. The fields of STATUS, and the halves in which a 64-bit register is read. -/

namespace Sys2Proof.Machine

/-- The code of a result (60_exceptions.md R202). -/
def ResultCode.bits : ResultCode → BitVec 4
  | .ok => 0x0
  | .invalidLength => 0x1
  | .checksumMismatch => 0x2
  | .negativeAmount => 0x3
  | .invalidOperation => 0x4
  | .invalidExpiration => 0x5
  | .noResult => 0xF

/-- STATUS.RVAR: 0 = A, 1 = B, 2 = C (10_state.md R24). -/
def rvarBits : Variant → BitVec 2
  | .a => 0
  | .b => 1
  | .c => 2

/-- STATUS.CRCSEL: 0 = `CRC_B`, 1 = `CRC_C` (10_state.md R24; `crcsel` of 30_encoding.md R72). -/
def crcSelBit : ProfileSel → BitVec 1
  | .crcB => 0
  | .crcC => 1

/-- The value of STATUS (42_validate.md R170): CRCSEL at bit 12, CMDERR at bit 8, RVAR at 5:4, RESULT at 3:0, all other
bits 0. -/
def statusWord (s : State) : Word :=
  ((crcSelBit s.crcSel).zeroExtend 32 <<< 12) ||| ((BitVec.ofBool s.cmdErr).zeroExtend 32 <<< 8) |||
    ((rvarBits s.rvar).zeroExtend 32 <<< 4) ||| s.result.bits.zeroExtend 32

/-- Bits 63:32 of a 64-bit register, read at its HI offset (20_memory.md R57). -/
def hiHalf (v : DWord) : Word := v.extractLsb' 32 32

/-- Bits 31:0 of a 64-bit register, read at its LO offset (20_memory.md R57). -/
def loHalf (v : DWord) : Word := v.extractLsb' 0 32

end Sys2Proof.Machine
end

