-- ==== Sys2Proof/Machine/Read.lean ====
section
/-! DEFINITION. The reads. None changes any state of CRCV (20_memory.md R59). -/

namespace Sys2Proof.Machine

open Host

/-- RD CMD, write-only: returns 0 and is not a command (42_validate.md R182). -/
def execRdCmd (s : State) : Outcome State Fault Refusal :=
  .next (answer 0 s)

/-- RD STATUS (42_validate.md R170). -/
def execRdStatus (s : State) : Outcome State Fault Refusal :=
  .next (answer (statusWord s) s)

/-- RD CRC_DATA, write-only: returns 0 and is not a feed (42_validate.md R182). -/
def execRdCrcData (s : State) : Outcome State Fault Refusal :=
  .next (answer 0 s)

/-- RD CRC_VALUE (40_crc.md R105): the finalised CRC; further feeds continue the same CRC. -/
def execRdCrcValue (s : State) : Outcome State Fault Refusal :=
  .next (answer ((crcFinal s.profile s.crcAcc).zeroExtend 32) s)

/-- RD FRAME_DATA, write-only: returns 0 and is not a push (42_validate.md R182). -/
def execRdFrameData (s : State) : Outcome State Fault Refusal :=
  .next (answer 0 s)

/-- RD FRAME_COUNT (41_frame_buffer.md R132). -/
def execRdFrameCount (s : State) : Outcome State Fault Refusal :=
  .next (answer (s.fcnt.zeroExtend 32) s)

/-- RD KEY_HI (42_validate.md R171). -/
def execRdKeyHi (s : State) : Outcome State Fault Refusal :=
  .next (answer (hiHalf s.res.key) s)

/-- RD KEY_LO (42_validate.md R172). -/
def execRdKeyLo (s : State) : Outcome State Fault Refusal :=
  .next (answer (loHalf s.res.key) s)

/-- RD OPERATION (42_validate.md R173). -/
def execRdOperation (s : State) : Outcome State Fault Refusal :=
  .next (answer (s.res.op.zeroExtend 32) s)

/-- RD ASSET (42_validate.md R174). -/
def execRdAsset (s : State) : Outcome State Fault Refusal :=
  .next (answer (s.res.asset.zeroExtend 32) s)

/-- RD PRICE_HI (42_validate.md R175). -/
def execRdPriceHi (s : State) : Outcome State Fault Refusal :=
  .next (answer (hiHalf s.res.price) s)

/-- RD PRICE_LO (42_validate.md R176). -/
def execRdPriceLo (s : State) : Outcome State Fault Refusal :=
  .next (answer (loHalf s.res.price) s)

/-- RD VOLUME_HI (42_validate.md R177). -/
def execRdVolumeHi (s : State) : Outcome State Fault Refusal :=
  .next (answer (hiHalf s.res.volume) s)

/-- RD VOLUME_LO (42_validate.md R178). -/
def execRdVolumeLo (s : State) : Outcome State Fault Refusal :=
  .next (answer (loHalf s.res.volume) s)

/-- RD EXPIRE_HI (42_validate.md R179). -/
def execRdExpireHi (s : State) : Outcome State Fault Refusal :=
  .next (answer (hiHalf s.res.expire) s)

/-- RD EXPIRE_LO (42_validate.md R180). -/
def execRdExpireLo (s : State) : Outcome State Fault Refusal :=
  .next (answer (loHalf s.res.expire) s)

/-- RD CHECKSUM (42_validate.md R181). -/
def execRdChecksum (s : State) : Outcome State Fault Refusal :=
  .next (answer (s.res.csum.zeroExtend 32) s)

end Sys2Proof.Machine
end

