-- ==== Sys2Proof/Machine/Dispatch.lean ====
section
/-! DEFINITION. exec: one arm per constructor of Instr, each one call of the instruction's meaning. -/

namespace Sys2Proof.Machine

def exec (i : Instr) (s : State) : Host.Outcome State Fault Refusal :=
  match i with
  | .crcInit p => Sys2Proof.Machine.execCrcInit p s
  | .frameClear => Sys2Proof.Machine.execFrameClear s
  | .validate v => Sys2Proof.Machine.execValidate v s
  | .clearErr => Sys2Proof.Machine.execClearErr s
  | .illegalCommandWord w => Sys2Proof.Machine.execIllegalCommandWord w s
  | .wrCmd w => Sys2Proof.Machine.execWrCmd w s
  | .rdCmd => Sys2Proof.Machine.execRdCmd s
  | .wrStatusIgnored w => Sys2Proof.Machine.execWrStatusIgnored w s
  | .rdStatus => Sys2Proof.Machine.execRdStatus s
  | .wrCrcData w => Sys2Proof.Machine.execWrCrcData w s
  | .rdCrcData => Sys2Proof.Machine.execRdCrcData s
  | .wrCrcValueIgnored w => Sys2Proof.Machine.execWrCrcValueIgnored w s
  | .rdCrcValue => Sys2Proof.Machine.execRdCrcValue s
  | .wrFrameData w => Sys2Proof.Machine.execWrFrameData w s
  | .rdFrameData => Sys2Proof.Machine.execRdFrameData s
  | .wrFrameCountIgnored w => Sys2Proof.Machine.execWrFrameCountIgnored w s
  | .rdFrameCount => Sys2Proof.Machine.execRdFrameCount s
  | .rdKeyHi => Sys2Proof.Machine.execRdKeyHi s
  | .wrKeyHiIgnored w => Sys2Proof.Machine.execWrKeyHiIgnored w s
  | .rdKeyLo => Sys2Proof.Machine.execRdKeyLo s
  | .wrKeyLoIgnored w => Sys2Proof.Machine.execWrKeyLoIgnored w s
  | .rdOperation => Sys2Proof.Machine.execRdOperation s
  | .wrOperationIgnored w => Sys2Proof.Machine.execWrOperationIgnored w s
  | .rdAsset => Sys2Proof.Machine.execRdAsset s
  | .wrAssetIgnored w => Sys2Proof.Machine.execWrAssetIgnored w s
  | .rdPriceHi => Sys2Proof.Machine.execRdPriceHi s
  | .wrPriceHiIgnored w => Sys2Proof.Machine.execWrPriceHiIgnored w s
  | .rdPriceLo => Sys2Proof.Machine.execRdPriceLo s
  | .wrPriceLoIgnored w => Sys2Proof.Machine.execWrPriceLoIgnored w s
  | .rdVolumeHi => Sys2Proof.Machine.execRdVolumeHi s
  | .wrVolumeHiIgnored w => Sys2Proof.Machine.execWrVolumeHiIgnored w s
  | .rdVolumeLo => Sys2Proof.Machine.execRdVolumeLo s
  | .wrVolumeLoIgnored w => Sys2Proof.Machine.execWrVolumeLoIgnored w s
  | .rdExpireHi => Sys2Proof.Machine.execRdExpireHi s
  | .wrExpireHiIgnored w => Sys2Proof.Machine.execWrExpireHiIgnored w s
  | .rdExpireLo => Sys2Proof.Machine.execRdExpireLo s
  | .wrExpireLoIgnored w => Sys2Proof.Machine.execWrExpireLoIgnored w s
  | .rdChecksum => Sys2Proof.Machine.execRdChecksum s
  | .wrChecksumIgnored w => Sys2Proof.Machine.execWrChecksumIgnored w s
  | .reservedOffset18 d k => Sys2Proof.Machine.execReservedOffset18 d k s
  | .reservedOffset4C d => Sys2Proof.Machine.execReservedOffset4C d s
  | .reservedOffset50 d k => Sys2Proof.Machine.execReservedOffset50 d k s
  | .reservedOffset60 d k => Sys2Proof.Machine.execReservedOffset60 d k s
  | .nonWordOrMisaligned a => Sys2Proof.Machine.execNonWordOrMisaligned a s

end Sys2Proof.Machine
end

