-- ==== Sys2Proof/Machine/Step.lean ====
section
/-! DEFINITION. One step: CRCV takes the next host event as one indivisible step (20_memory.md R58, R60), and takes no
step of its own (70_reset_and_hazards.md R237). -/

namespace Sys2Proof.Machine

/-- One step. Where no event has arrived the state stays as it is (70_reset_and_hazards.md R237: "with CRCV in the state
that access left"; log entry 4). -/
def step (s : State) : Host.Outcome State Fault Refusal :=
  match fetch s with
  | none => .next s
  | some (.reset, s') => .next (platformReset s')
  | some (.op o, s') => exec (decode o) s'

/-- `s` with the operation whose table bits are `w` as the next host event, so that the next step runs it. Bits that no
row of the table has leave `s` as it is. -/
def State.withFetchWord (s : State) (nbits w : Nat) : State :=
  match tableOperation nbits w with
  | some o => arrive (.op o) s
  | none => s

end Sys2Proof.Machine
end

