-- ==== Sys2Proof/Machine/Bus.lean ====
section
/-! DEFINITION. How a bus address reaches the window (20_memory.md R50, R51). The machine's steps take accesses by
offset (00_scope.md R11); this says which host requests become such accesses. -/

namespace Sys2Proof.Machine

/-- A request of a host on the bus, by bus address. -/
structure BusRequest where
  dir  : Dir
  addr : Nat
  size : AccessSize
  deriving DecidableEq, Repr

/-- The offset that a bus address has in the window of 128 bytes at `base`; none outside it (R50, R51). -/
def windowOffset (base addr : Nat) : Option Offset :=
  if base ≤ addr ∧ addr < base + 128 then some (BitVec.ofNat 7 (addr - base)) else none

/-- The access that a request becomes; a request at an address CRCV does not decode becomes none (R51). -/
def route (r : BusRequest) : Option Access :=
  (windowOffset Config.base r.addr).map fun off => { dir := r.dir, off := off, size := r.size }

/-- A request put on the bus: it arrives after those already on their way if it reaches the window, and does not
concern CRCV otherwise (R51). -/
def request (r : BusRequest) (s : State) : State :=
  match route r with
  | some a => { s with pending := s.pending ++ [.op (.bus a)] }
  | none => s

end Sys2Proof.Machine
end

