-- ==== Sys2Proof/Safety.lean ====
section
/-! DEFINITION. The terms that statements about CRCV use: numbers and frames as lists of bytes, the fields a variant
admits, the invariant of the result registers, what a host event does, and states that no host can tell apart. -/

namespace Sys2Proof.Machine

/-! ### Big-endian numbers and frames as lists of bytes -/

/-- The number that bytes spell most significant byte first (00_scope.md R10; 20_memory.md R56). -/
def beNat (bs : List Byte) : Nat := bs.foldl (fun n b => 256 * n + b.toNat) 0

/-- Bytes `F[i..i+n)` of a frame (00_scope.md R9). -/
def slice (i n : Nat) (f : List Byte) : List Byte := (f.drop i).take n

/-- The eight bytes of a 64-bit field, most significant first. -/
def bytes8 (x : DWord) : List Byte :=
  [x.extractLsb' 56 8, x.extractLsb' 48 8, x.extractLsb' 40 8, x.extractLsb' 32 8,
   x.extractLsb' 24 8, x.extractLsb' 16 8, x.extractLsb' 8 8, x.extractLsb' 0 8]

/-- The two bytes of a 16-bit field, most significant first. -/
def bytes2 (x : Half) : List Byte := [x.extractLsb' 8 8, x.extractLsb' 0 8]

/-- The bytes of a frame before its checksum, in the order of 30_encoding.md R76. -/
def frameBody (v : Variant) (f : Fields) : List Byte :=
  match v with
  | .a | .b => bytes8 f.key ++ [f.op] ++ [f.asset.extractLsb' 0 8] ++ bytes8 f.price ++ bytes8 f.volume
  | .c => bytes8 f.key ++ [f.op] ++ bytes2 f.asset ++ bytes8 f.price ++ bytes8 f.volume ++ bytes8 f.expire

/-- The checksum that a frame with these fields carries: the CRC over every byte before it under the variant's profile
(40_crc.md R107); 0 for variant A, which has none. -/
def frameChecksum (cfg : Config) (v : Variant) (f : Fields) : Half :=
  match checksumProfile cfg v with
  | none => 0
  | some p => crc16 p (frameBody v f)

/-- A frame built by 40_crc.md R107: the fields, and for B and C the checksum as the last two bytes, big-endian. -/
def buildFrame (cfg : Config) (v : Variant) (f : Fields) : List Byte :=
  match v with
  | .a => frameBody v f
  | .b | .c => frameBody v f ++ bytes2 (frameChecksum cfg v f)

/-- A list of bytes with one bit of it flipped: bit `j` of byte `i`. -/
def flipBit (i : Nat) (j : Fin 8) (bs : List Byte) : List Byte :=
  bs.modify i fun b => b ^^^ (1#8 <<< j.val)

/-! ### Valid fields and the invariant of the result registers -/

/-- Field values that pass the checks of 42_validate.md R157 and fit the variant's layout: Asset is one byte in A and B,
and a field that the variant lacks is 0 (R152). -/
structure Fields.Valid (cfg : Config) (v : Variant) (f : Fields) : Prop where
  price_ok  : negAmount cfg.rejectNan f.price = false
  volume_ok : negAmount cfg.rejectNan f.volume = false
  op_ok     : f.op ≤ opMax
  asset_fit : v ≠ .c → f.asset ≤ 0xFF
  no_expire : v ≠ .c → f.expire = 0
  expire_ok : v = .c → expireMin ≤ f.expire

/-- The result registers say what STATUS says: all 0 unless the last VALIDATE succeeded (42_validate.md R159), and then
a valid packet of the variant in RVAR whose checksum is the CRC of its other bytes (R157, R173, R174, R179, R181). -/
structure State.Consistent (s : State) : Prop where
  zero_unless_ok : s.result ≠ .ok → s.res = .zero
  no_result_rvar : s.result = .noResult → s.rvar = .a
  valid_if_ok    : s.result = .ok → s.res.Valid s.cfg s.rvar
  checksum_if_ok : s.result = .ok → s.res.csum = frameChecksum s.cfg s.rvar s.res

/-! ### What a host event does -/

/-- The row of the opcode table whose rule an event performs; reset performs none. A write to CMD performs the rule of
its command (30_encoding.md R73). -/
def HostEvent.performs : HostEvent → Option Instr
  | .op o => some (decode o).resolve
  | .reset => none

/-- An event that starts a new CRC: CRC.INIT or reset (10_state.md R35). -/
def HostEvent.startsCrc (e : HostEvent) : Bool :=
  match e.performs with
  | none => true
  | some (.crcInit _) => true
  | some _ => false

/-- The byte that an event feeds to the CRC generator, if it feeds one (40_crc.md R104). -/
def HostEvent.fedByte (e : HostEvent) : Option Byte :=
  match e.performs with
  | some (.wrCrcData w) => some (byteOperand w)
  | _ => none

/-- An event that changes FCNT or the pushed bytes: FRAME.CLEAR, a push or reset (10_state.md R28, R36). -/
def HostEvent.changesFrame (e : HostEvent) : Bool :=
  match e.performs with
  | none => true
  | some .frameClear => true
  | some (.wrFrameData _) => true
  | some _ => false

/-- `PUSH b` (30_encoding.md R79). -/
def push (b : Byte) : HostEvent := .op (encode (.wrFrameData (b.zeroExtend 32)))

/-- Software's sequence to validate a frame (70_reset_and_hazards.md R233): FRAME.CLEAR, the pushes, VALIDATE. -/
def validateSequence (v : Variant) (frame : List Byte) : List HostEvent :=
  [.op (encode .frameClear)] ++ frame.map push ++ [.op (encode (.validate v))]

/-! ### States that no host can tell apart -/

/-- Two states that agree in everything but frame buffer bytes at or above FCNT (10_state.md R36). -/
structure SameVisible (s t : State) : Prop where
  same_but_fb : t = { s with fb := t.fb }
  same_pushed : ∀ (i : Nat) (h : i < fbDepth), i < s.fcnt.toNat → t.fb[i] = s.fb[i]

/-! ### IEEE-754 binary64 (00_scope.md R12; 93_implementation_defined.md K6, K7) -/

/-- The value of a finite binary64 pattern in units of 2^-1074: the fraction, with the hidden bit and the exponent's
scale for a normal number, under the sign. -/
def finiteUnits (x : DWord) : Int :=
  let e := (x.extractLsb' 52 11).toNat
  let m := (x.extractLsb' 0 52).toNat
  let u : Nat := if e = 0 then m else (2 ^ 52 + m) * 2 ^ (e - 1)
  if x.msb then -(u : Int) else u

/-- x < +0.0 by IEEE-754's ordered comparison: false for a NaN, true for -infinity, and for a finite number the order of
its value. -/
def ieeeLtZero (x : DWord) : Prop :=
  if x.extractLsb' 52 11 = 0x7FF then x.extractLsb' 0 52 = 0 ∧ x.msb = true else finiteUnits x < 0

end Sys2Proof.Machine
end

