-- ==== Sys2Proof/Certificates/Slice0/Obligations.lean ====
section
/-! DEFINITION. The statements for the provers, from the numbered rules of spec/. -/

open Sys2Proof Sys2Proof.Machine

/-- 10_state.md R36, R38; 70_reset_and_hazards.md R230. When the platform's reset is the next host event, the step
answers a next state with CRC_ACC = CRC_B.init, CRCSEL = 0 (CRC_B), FCNT = 0, RESULT = 0xF, RVAR = 0 (A), CMDERR = 0
and every result register 0; the frame buffer keeps its bytes, the parameters are as they were and the event is
taken. State.reset holds the same values under the default profile, so CRC_ACC = 0xFFFF there. The values of the
elements are R38's. That the frame buffer keeps its bytes is deduced from R36, and that the parameters and the later
events are kept is the model's choice (both log entry 6). That State.reset has the default parameters is the model's
choice (log entry 1); nothing is said of its frame buffer (log entry 5). -/
def Obligations.ResetLeavesTheSpecValues : Prop :=
  (∀ (s : State) (rest : List HostEvent), s.pending = .reset :: rest →
    ∃ t, step s = .next t ∧
      t.crcAcc = s.cfg.crcB.init ∧ crcSelBit t.crcSel = 0 ∧ t.fcnt = 0 ∧ t.result.bits = 0xF ∧ rvarBits t.rvar = 0 ∧
      t.cmdErr = false ∧ t.res.key = 0 ∧ t.res.op = 0 ∧ t.res.asset = 0 ∧ t.res.price = 0 ∧ t.res.volume = 0 ∧
      t.res.expire = 0 ∧ t.res.csum = 0 ∧ t.fb = s.fb ∧ t.cfg = s.cfg ∧ t.pending = rest) ∧
  State.reset.crcAcc = 0xFFFF ∧ crcSelBit State.reset.crcSel = 0 ∧ State.reset.fcnt = 0 ∧
  State.reset.result.bits = 0xF ∧ rvarBits State.reset.rvar = 0 ∧ State.reset.cmdErr = false ∧
  State.reset.res = { key := 0, op := 0, asset := 0, price := 0, volume := 0, expire := 0, csum := 0 }

/-- 10_state.md R38; 42_validate.md R159. For every choice of parameters and every content of the frame buffer, the
state after reset is Consistent; so is State.reset. -/
def Obligations.ResetIsConsistent : Prop :=
  (∀ (cfg : Config) (fb : FrameBuf), (State.afterReset cfg fb).Consistent) ∧ State.reset.Consistent

/-- 42_validate.md R157, R159, R160; 42_validate.md R173, R174, R179, R181; 10_state.md R34, R40. For every state in
which the result registers are all 0 unless RESULT = 0, and hold a valid packet of variant RVAR whose CHECKSUM is
the CRC of its other bytes when RESULT = 0, every next state of a step is of the same kind: whatever the event, the
parameters and the frame. -/
def Obligations.StepKeepsResultRegistersConsistent : Prop :=
  ∀ s t : State, s.Consistent → step s = .next t → t.Consistent

/-- 60_exceptions.md R200, R201, R206; 30_encoding.md R73. From every state, the step answers a next state, never a
fault or a refusal. That no access and no command word is without an outcome is the rules'. That a bus error and a
command error are next states is deduced from them (log entry 13), and that a step with nothing pending answers a
next state is the model's choice (log entry 4). -/
def Obligations.StepNeverStops : Prop :=
  ∀ s : State, ∃ t, step s = .next t

/-- 20_memory.md R58, R60; 00_scope.md R13. When an operation is the next host event, the step is exec of the decoded
operation at the state with that event taken; and for any table bits the decoder accepts, the step after
withFetchWord is exec of the decoded instruction. The clause on withFetchWord and table bits is the model's choice:
how an operation is placed first (log entry 2), and that 8 table bits are an access of size 4 with the data word 0
(log entry 8). -/
def Obligations.StepRunsTheDecodedOperation : Prop :=
  (∀ (s : State) (o : Operation) (rest : List HostEvent), s.pending = .op o :: rest →
    step s = exec (decode o) { s with pending := rest }) ∧
  (∀ (s : State) (nbits w : Nat) (i : Instr), decodeTableWord nbits w = some i →
    step (s.withFetchWord nbits w) = exec i s)

/-- 70_reset_and_hazards.md section 4, R237. When nothing is pending the step answers the same state. That the step
answers a next state there is the model's choice (log entry 4); that CRCV takes no step of its own is the spec's. -/
def Obligations.NoEventNoChange : Prop :=
  ∀ s : State, s.pending = [] → step s = .next s

/-- 20_memory.md R60; 40_crc.md R100. For every step that answers a next state, the events still to come are the tail of
those before, in the same order, and the build's parameters are unchanged. For accesses this is R60 and R100. That
reset keeps the later events and the parameters is the model's choice (log entry 6), and so is that a step with
nothing pending answers a next state (log entry 4). -/
def Obligations.EventsAreTakenInOrder : Prop :=
  ∀ s t : State, step s = .next t → t.pending = s.pending.tail ∧ t.cfg = s.cfg

/-- 30_encoding.md R71, R72, R74; 10_state.md R37. For every well-formed term of Instr, with every operand at every
value, decode of encode is that term: all 44 rows of the table. -/
def Obligations.DecodeEncodeRoundTrip : Prop :=
  ∀ i : Instr, i.wellFormed = true → decode (encode i) = i

/-- 30_encoding.md R73, R74; 20_memory.md R53. Every bus access and every command word decodes to a well-formed
operation whose encoding is that access or word, so no bit of it is dropped and no two operations share an encoding. -/
def Obligations.EncodeDecodeRoundTrip : Prop :=
  ∀ o : Operation, (decode o).wellFormed = true ∧ encode (decode o) = o

/-- 30_encoding.md R74; 10_state.md R37. For each of the 64 keys with off[1:0] = 0, exactly one row of the bus table
matches. -/
def Obligations.EveryAlignedKeySelectsOneRow : Prop :=
  ∀ k : BitVec 8, k.extractLsb' 0 2 = 0 → (busTable.filter (·.hits k)).length = 1

/-- 30_encoding.md R71, R73, R74; 20_memory.md R53. Fourteen encodings decode to the operation they stand for: the four
commands and an illegal word, a write of CMD, a feed, a push, two reads, an ignored write, a reserved offset, a
misaligned access and one of two bytes. -/
def Obligations.WordsWrittenOutDecode : Prop :=
  decode (.cmd 0b00000000000000000000000100000001) = .crcInit .crcB ∧
  decode (.cmd 0b00000000000000000000001000000011) = .validate .c ∧
  decode (.cmd 0b00000000000000000000000000000010) = .frameClear ∧
  decode (.cmd 0b00000000000000000000000000000100) = .clearErr ∧
  decode (.cmd 0b00000000000000000000001100000011) = .illegalCommandWord 0x303 ∧
  decode (.bus { dir := .wr 0x103, off := 0b0000000, size := .word }) = .wrCmd 0x103 ∧
  decode (.bus { dir := .wr 0x31, off := 0b0001000, size := .word }) = .wrCrcData 0x31 ∧
  decode (.bus { dir := .wr 0xAB, off := 0b0010000, size := .word }) = .wrFrameData 0xAB ∧
  decode (.bus { dir := .rd, off := 0b1001000, size := .word }) = .rdChecksum ∧
  decode (.bus { dir := .rd, off := 0b0000100, size := .word }) = .rdStatus ∧
  decode (.bus { dir := .wr 7, off := 0b0000100, size := .word }) = .wrStatusIgnored 7 ∧
  decode (.bus { dir := .rd, off := 0b0011100, size := .word }) = .reservedOffset18 .rd 1 ∧
  decode (.bus { dir := .wr 5, off := 0b0000010, size := .word }) =
    .nonWordOrMisaligned { dir := .wr 5, off := 0b0000010, size := .word } ∧
  decode (.bus { dir := .wr 3, off := 0b0000000, size := .half }) =
    .nonWordOrMisaligned { dir := .wr 3, off := 0b0000000, size := .half }

/-- R73. For every 32-bit word: it is legal iff it is one of the seven listed words. A write of an illegal word to CMD
answers the next state with CMDERR = 1 and the response OKAY and nothing else changed. A write of each legal word is
the command it encodes. -/
def Obligations.CommandLegality : Prop :=
  ∀ (w : Word) (s : State),
    (legal w = true ↔ w ∈ [0x00000101, 0x00000201, 0x00000002, 0x00000003, 0x00000103, 0x00000203, 0x00000004]) ∧
    (legal w = false → exec (.wrCmd w) s = .next { s with cmdErr := true, response := .okay }) ∧
    exec (.wrCmd 0x00000101) s = exec (.crcInit .crcB) s ∧
    exec (.wrCmd 0x00000201) s = exec (.crcInit .crcC) s ∧
    exec (.wrCmd 0x00000002) s = exec .frameClear s ∧
    exec (.wrCmd 0x00000003) s = exec (.validate .a) s ∧
    exec (.wrCmd 0x00000103) s = exec (.validate .b) s ∧
    exec (.wrCmd 0x00000203) s = exec (.validate .c) s ∧
    exec (.wrCmd 0x00000004) s = exec .clearErr s

/-- 30_encoding.md R70, R73, R78. For every word, the word-sized write at offset 0x00 decodes to WR_CMD, WR_CMD does
what the command of its word does, and so the write as a bus access and as a command are one operation; it always
answers a next state. -/
def Obligations.CmdWriteRunsItsCommand : Prop :=
  ∀ (w : Word) (s : State),
    decode (.bus (cmdWrite w)) = .wrCmd w ∧
    exec (.wrCmd w) s = exec (decodeCommand w).toInstr s ∧
    exec (decode (.bus (cmdWrite w))) s = exec (decode (.cmd w)) s ∧
    ∃ t, exec (.wrCmd w) s = .next t

/-- 40_crc.md R103; 30_encoding.md R72. For both operands and every state: CRCSEL and CRC_ACC take the profile's
selector and initial value, the response is OKAY and every other element is unchanged; a second CRC.INIT of the same
profile changes nothing more. -/
def Obligations.CrcInitStartsTheProfile : Prop :=
  ∀ s : State,
    exec (.crcInit .crcB) s = .next { s with crcSel := .crcB, crcAcc := s.cfg.crcB.init, response := .okay } ∧
    exec (.crcInit .crcC) s = .next { s with crcSel := .crcC, crcAcc := s.cfg.crcC.init, response := .okay } ∧
    ∀ p, ∃ t, exec (.crcInit p) s = .next t ∧ exec (.crcInit p) t = .next t

/-- 41_frame_buffer.md R130. For every state FRAME.CLEAR answers the state with FCNT = 0 and the response OKAY; the
frame buffer, STATUS, the result registers and the CRC generator are unchanged. -/
def Obligations.FrameClearClearsTheCountAlone : Prop :=
  ∀ s : State, exec .frameClear s = .next { s with fcnt := 0, response := .okay }

/-- 42_validate.md R162; 60_exceptions.md R201. For every state and word: CLEAR.ERR answers the state with CMDERR = 0,
an illegal command word the state with CMDERR = 1; the response is OKAY and nothing else changes. -/
def Obligations.ErrorFlagCommands : Prop :=
  ∀ (w : Word) (s : State),
    exec .clearErr s = .next { s with cmdErr := false, response := .okay } ∧
    exec (.illegalCommandWord w) s = .next { s with cmdErr := true, response := .okay }

/-- R200. Every bus access answers a next state. Its response is BUSERR iff the size is not 4 bytes, or the offset is
not a multiple of 4, or the offset is reserved (0x18, 0x1C, 0x4C to 0x7C); and then nothing of the state but the
response has changed. -/
def Obligations.BusErrorExactlyWhen : Prop :=
  ∀ (a : Access) (s : State), ∃ t, exec (decode (.bus a)) s = .next t ∧
    (t.response = .busErr ↔
      a.size ≠ .word ∨ a.off.toNat % 4 ≠ 0 ∨ a.off.toNat = 0x18 ∨ a.off.toNat = 0x1C ∨ 0x4C ≤ a.off.toNat) ∧
    (t.response = .busErr → t = { s with response := .busErr })

/-- 60_exceptions.md R200; 20_memory.md R53. Each of the five rejected rows answers, for every direction, data, offset
and size, the state with the response BUSERR and nothing else changed. -/
def Obligations.RejectedAccessRowsChangeNothing : Prop :=
  ∀ (d : Dir) (k1 : BitVec 1) (k2 : BitVec 2) (k3 : BitVec 3) (a : Access) (s : State),
    exec (.reservedOffset18 d k1) s = .next { s with response := .busErr } ∧
    exec (.reservedOffset4C d) s = .next { s with response := .busErr } ∧
    exec (.reservedOffset50 d k2) s = .next { s with response := .busErr } ∧
    exec (.reservedOffset60 d k3) s = .next { s with response := .busErr } ∧
    exec (.nonWordOrMisaligned a) s = .next { s with response := .busErr }

/-- 20_memory.md R59. For every offset and size, the read answers the state with some response and nothing else changed,
and the same read made again answers that same state. -/
def Obligations.ReadsChangeNoState : Prop :=
  ∀ (off : Offset) (size : AccessSize) (s : State), ∃ r : Response,
    exec (decode (.bus { dir := .rd, off := off, size := size })) s = .next { s with response := r } ∧
    exec (decode (.bus { dir := .rd, off := off, size := size })) { s with response := r } =
      .next { s with response := r }

/-- R182. The reads at offsets 0x00, 0x08 and 0x10 are RD CMD, RD CRC_DATA and RD FRAME_DATA; each answers, at every
state, OKAY with the value 0 and nothing else changed. -/
def Obligations.WriteOnlyRegistersReadZero : Prop :=
  decode (readAt 0x00) = .rdCmd ∧ decode (readAt 0x08) = .rdCrcData ∧ decode (readAt 0x10) = .rdFrameData ∧
  ∀ s : State,
    exec .rdCmd s = .next { s with response := .okayData 0x00000000 } ∧
    exec .rdCrcData s = .next { s with response := .okayData 0x00000000 } ∧
    exec .rdFrameData s = .next { s with response := .okayData 0x00000000 }

/-- R183. For every data word and state, a word-sized write at 0x04, 0x0C, 0x14 and each of 0x20 to 0x48 answers the
state with the response OKAY and nothing else changed, and so does each of the fourteen rows. -/
def Obligations.ReadOnlyWritesAreIgnored : Prop :=
  ∀ (w : Word) (s : State),
    (∀ off ∈ ([0x04, 0x0C, 0x14, 0x20, 0x24, 0x28, 0x2C, 0x30, 0x34, 0x38, 0x3C, 0x40, 0x44, 0x48] : List Offset),
      exec (decode (writeAt off w)) s = .next { s with response := .okay }) ∧
    (∀ i ∈ [Instr.wrStatusIgnored w, .wrCrcValueIgnored w, .wrFrameCountIgnored w, .wrKeyHiIgnored w,
        .wrKeyLoIgnored w, .wrOperationIgnored w, .wrAssetIgnored w, .wrPriceHiIgnored w, .wrPriceLoIgnored w,
        .wrVolumeHiIgnored w, .wrVolumeLoIgnored w, .wrExpireHiIgnored w, .wrExpireLoIgnored w,
        .wrChecksumIgnored w],
      exec i s = .next { s with response := .okay })

/-- 20_memory.md R50, R51. BASE is a multiple of 128. A request becomes an access iff its address is in BASE .. BASE +
127; the access has the offset address - BASE and the request's direction and size, and arrives after the events
already pending. A request elsewhere leaves the state as it is. The window and the offsets are R50's and R51's. That
the first byte alone decides, for every size, is the model's choice (log entry 9), and so is the place at the end of
the pending events (log entry 2). -/
def Obligations.BusWindowIs128BytesAtBase : Prop :=
  Config.base % 128 = 0 ∧
  ∀ (r : BusRequest) (s : State),
    (Config.base ≤ r.addr ∧ r.addr < Config.base + 128 →
      ∃ a, route r = some a ∧ Config.base + a.off.toNat = r.addr ∧ a.dir = r.dir ∧ a.size = r.size ∧
        request r s = { s with pending := s.pending ++ [.op (.bus a)] }) ∧
    (r.addr < Config.base ∨ Config.base + 128 ≤ r.addr → route r = none ∧ request r s = s)

/-- R170. For every state RD STATUS answers OKAY with a word and changes nothing else; bits 3:0 are RESULT, 5:4 RVAR, 8
CMDERR, 12 CRCSEL and all others 0. At the state after reset, for all parameters, the word is 0x0000000F; with
RESULT = 0, RVAR = 2, CMDERR = 0 and CRCSEL = 0 it is 0x00000020. -/
def Obligations.StatusReadsItsFields : Prop :=
  (∀ s : State, ∃ w : Word, exec .rdStatus s = .next { s with response := .okayData w } ∧
    w.extractLsb' 0 4 = s.result.bits ∧ w.extractLsb' 4 2 = rvarBits s.rvar ∧ w.extractLsb' 6 2 = 0 ∧
    w.extractLsb' 8 1 = BitVec.ofBool s.cmdErr ∧ w.extractLsb' 9 3 = 0 ∧ w.extractLsb' 12 1 = crcSelBit s.crcSel ∧
    w.extractLsb' 13 19 = 0 ∧
    (s.result = .ok → s.rvar = .c → s.cmdErr = false → s.crcSel = .crcB → w = 0x00000020)) ∧
  (∀ (cfg : Config) (fb : FrameBuf),
    exec .rdStatus (State.afterReset cfg fb) =
      .next { State.afterReset cfg fb with response := .okayData 0x0000000F })

/-- 60_exceptions.md R202, R203; 10_state.md R24. OK = 0, InvalidLength = 1, ChecksumMismatch = 2, NegativeAmount = 3,
InvalidOperation = 4, InvalidExpiration = 5, no result = 0xF; RVAR is 0, 1, 2 for A, B, C; CRCSEL is 0 for CRC_B and
1 for CRC_C. No result has a code from 6 to 14 and no variant the code 3. -/
def Obligations.ResultCodesHaveTheirNumbers : Prop :=
  ResultCode.ok.bits = 0x0 ∧ ResultCode.invalidLength.bits = 0x1 ∧ ResultCode.checksumMismatch.bits = 0x2 ∧
  ResultCode.negativeAmount.bits = 0x3 ∧ ResultCode.invalidOperation.bits = 0x4 ∧
  ResultCode.invalidExpiration.bits = 0x5 ∧ ResultCode.noResult.bits = 0xF ∧
  rvarBits .a = 0 ∧ rvarBits .b = 1 ∧ rvarBits .c = 2 ∧ crcSelBit .crcB = 0 ∧ crcSelBit .crcC = 1 ∧
  (∀ r : ResultCode, r.bits ≤ 0x5 ∨ r.bits = 0xF) ∧ (∀ v : Variant, rvarBits v ≠ 3)

/-- 42_validate.md R171 to R181; 10_state.md R29 to R34, R40. For every state the eleven reads of KEY_HI to CHECKSUM
answer OKAY with the named half or the zero-extended register, and nothing else changes. -/
def Obligations.ResultRegisterReads : Prop :=
  ∀ s : State,
    exec .rdKeyHi s = .next { s with response := .okayData (s.res.key.extractLsb' 32 32) } ∧
    exec .rdKeyLo s = .next { s with response := .okayData (s.res.key.extractLsb' 0 32) } ∧
    exec .rdOperation s = .next { s with response := .okayData (s.res.op.setWidth 32) } ∧
    exec .rdAsset s = .next { s with response := .okayData (s.res.asset.setWidth 32) } ∧
    exec .rdPriceHi s = .next { s with response := .okayData (s.res.price.extractLsb' 32 32) } ∧
    exec .rdPriceLo s = .next { s with response := .okayData (s.res.price.extractLsb' 0 32) } ∧
    exec .rdVolumeHi s = .next { s with response := .okayData (s.res.volume.extractLsb' 32 32) } ∧
    exec .rdVolumeLo s = .next { s with response := .okayData (s.res.volume.extractLsb' 0 32) } ∧
    exec .rdExpireHi s = .next { s with response := .okayData (s.res.expire.extractLsb' 32 32) } ∧
    exec .rdExpireLo s = .next { s with response := .okayData (s.res.expire.extractLsb' 0 32) } ∧
    exec .rdChecksum s = .next { s with response := .okayData (s.res.csum.setWidth 32) }

/-- R57. After a successful VALIDATE, for Key, Price and Volume, and Expire in variant C, the HI word read followed by
the LO word read is the big-endian number of the field's eight frame bytes; the field's first byte is HI[31:24] and
its last LO[7:0]. -/
def Obligations.WideFieldsSplitBigEndian : Prop :=
  ∀ (v : Variant) (s : State), validateCode s.cfg v s.fcnt s.fb = .ok →
    ∃ t, exec (.validate v) s = .next t ∧
      ∀ p ∈ [(Instr.rdKeyHi, Instr.rdKeyLo, 0), (.rdPriceHi, .rdPriceLo, if v = .c then 11 else 10),
          (.rdVolumeHi, .rdVolumeLo, if v = .c then 19 else 18)] ++
          (if v = .c then [(.rdExpireHi, .rdExpireLo, 27)] else []),
        ∃ hi lo : Word,
          exec p.1 t = .next { t with response := .okayData hi } ∧
          exec p.2.1 t = .next { t with response := .okayData lo } ∧
          (hi ++ lo).toNat = beNat (slice p.2.2 8 s.fb.toList) ∧
          s.fb[p.2.2]? = some (hi.extractLsb' 24 8) ∧ s.fb[p.2.2 + 7]? = some (lo.extractLsb' 0 8)

/-- 40_crc.md R101, R105. For every state RD CRC_VALUE answers OKAY with crc_final of CRC_ACC under CRC_B or CRC_C by
CRCSEL, zero-extended, and nothing else changes; under a profile with refout = false and xorout = 0 the value is
CRC_ACC. -/
def Obligations.CrcValueReadsTheFinalisedCrc : Prop :=
  ∀ s : State,
    (s.crcSel = .crcB → exec .rdCrcValue s =
      .next { s with response := .okayData ((crcFinal s.cfg.crcB s.crcAcc).setWidth 32) }) ∧
    (s.crcSel = .crcC → exec .rdCrcValue s =
      .next { s with response := .okayData ((crcFinal s.cfg.crcC s.crcAcc).setWidth 32) }) ∧
    ∀ p : Profile, p.refout = false → p.xorout = 0 → crcFinal p s.crcAcc = s.crcAcc

/-- 41_frame_buffer.md R132; 10_state.md R28. For every state RD FRAME_COUNT answers OKAY with FCNT zero-extended, and
nothing else changes. -/
def Obligations.FrameCountReadsTheCounter : Prop :=
  ∀ s : State, exec .rdFrameCount s = .next { s with response := .okayData (s.fcnt.setWidth 32) }

/-- 40_crc.md R104; 10_state.md R25. For every word and state, WR CRC_DATA sets CRC_ACC to crc_step of it with w[7:0]
under the profile CRCSEL selects, answers OKAY and changes nothing else; bits 31:8 do not matter. -/
def Obligations.FeedStepsTheAccumulator : Prop :=
  ∀ (w : Word) (s : State),
    (s.crcSel = .crcB → exec (.wrCrcData w) s =
      .next { s with crcAcc := crcStep s.cfg.crcB s.crcAcc (w.setWidth 8), response := .okay }) ∧
    (s.crcSel = .crcC → exec (.wrCrcData w) s =
      .next { s with crcAcc := crcStep s.cfg.crcC s.crcAcc (w.setWidth 8), response := .okay })

/-- 40_crc.md R104, R106; 10_state.md R38; 70_reset_and_hazards.md R232. From every state whose next events are CRC.INIT
of a profile in either format, or reset (then the profile is CRC_B), then any events with no CRC.INIT and no reset
among them, then RD CRC_VALUE: taking them all answers the read with crc16 of exactly the fed bytes under that
profile, zero-extended. VALIDATE, FRAME.CLEAR, pushes, CLEAR.ERR, illegal commands, reads and rejected accesses in
between change nothing here. For CRC.INIT this is R106; for reset it is the corner case of R104 and R232, with the
events after the reset and the parameters kept by the model's choice (log entry 6). -/
def Obligations.StreamedCrcEqualsTheFunction : Prop :=
  ∀ (s : State) (p : ProfileSel) (first : HostEvent) (evs rest : List HostEvent),
    first.performs = some (.crcInit p) ∨ (first = .reset ∧ p = .crcB) →
    (∀ e ∈ evs, e.startsCrc = false) →
    s.pending = first :: evs ++ .op (encode .rdCrcValue) :: rest →
    ∃ t : State, Sys2Proof.core.run (evs.length + 2) s = .next t ∧
      t.response = .okayData ((crc16 (profileOf s.cfg p) (evs.filterMap HostEvent.fedByte)).setWidth 32)

/-- 40_crc.md R108. For every profile with refin = false, refout = false and xorout = 0, and every list of bytes, crc16
of the bytes followed by the two bytes of their CRC, big-endian, is 0. -/
def Obligations.ResidueIsZero : Prop :=
  ∀ (p : Profile) (bs : List Byte), p.refin = false → p.refout = false → p.xorout = 0 →
    crc16 p (bs ++ bytes2 (crc16 p bs)) = 0

/-- R185. Let poly != 0 for both profiles. For every B or C frame built from any field values by rule R107 and every bit
of every byte of it, checksum bytes included: VALIDATE of that variant on the frame with that one bit flipped
answers a next state with RESULT = ChecksumMismatch. -/
def Obligations.SingleBitFlipsAreDetected : Prop :=
  ∀ (v : Variant) (f : Fields) (i : Nat) (j : Fin 8) (s : State),
    s.cfg.PolysNonzero → v ≠ .a → i < frameLen v → s.fcnt.toNat = frameLen v →
    frameBytes s.fb (frameLen v) = flipBit i j (buildFrame s.cfg v f) →
    ∃ t, exec (.validate v) s = .next t ∧ t.result = .checksumMismatch

/-- 41_frame_buffer.md R131; 10_state.md R27, R36. For every word and state WR FRAME_DATA answers a next state in which
only FB, FCNT and the response differ: FB[FCNT] is w[7:0] when FCNT < 37, every other byte of FB is unchanged, FCNT
is one more but never above 0xFFFF, and the response is OKAY. -/
def Obligations.PushStoresAndCounts : Prop :=
  ∀ (w : Word) (s : State), ∃ t, exec (.wrFrameData w) s = .next t ∧
    t = { s with fb := t.fb, fcnt := t.fcnt, response := .okay } ∧
    (∀ (i : Nat) (h : i < 37), t.fb[i] = if s.fcnt.toNat = i then w.setWidth 8 else s.fb[i]) ∧
    t.fcnt.toNat = min (s.fcnt.toNat + 1) 0xFFFF

/-- 41_frame_buffer.md R130, R131, R133; 10_state.md R36, R38. From every state whose next events are FRAME.CLEAR or
reset and then pushes of any list of bytes: taking them all leaves FCNT at the length of the list, saturated at
0xFFFF, FB holding the list's first 37 bytes in order, bytes of FB beyond the list as they were, and the later
events still pending. With reset as the first event, the bytes beyond the list are R36's, and that the later events
are kept is the model's choice (log entry 6). -/
def Obligations.FrameHoldsThePushedBytes : Prop :=
  ∀ (s : State) (e : HostEvent) (bs : List Byte) (rest : List HostEvent),
    e = .op (encode .frameClear) ∨ e = .reset →
    s.pending = e :: bs.map push ++ rest →
    ∃ t : State, Sys2Proof.core.run (bs.length + 1) s = .next t ∧
      t.fcnt.toNat = min bs.length 0xFFFF ∧
      (∀ (i : Nat) (h : i < 37), t.fb[i] = if h' : i < bs.length then bs[i] else s.fb[i]) ∧
      t.pending = rest

/-- 41_frame_buffer.md R131; 42_validate.md R155, R159; 70_reset_and_hazards.md R233. For every variant and every list
of bytes whose length is not the variant's frame length, however long and whatever its bytes: the sequence
FRAME.CLEAR, the pushes, VALIDATE, taken from any state, ends with RESULT = InvalidLength, RVAR the variant, and
every result register 0. -/
def Obligations.WrongLengthSequencesFail : Prop :=
  ∀ (s : State) (v : Variant) (bs : List Byte), bs.length ≠ frameLen v → s.pending = validateSequence v bs →
    ∃ t : State, Sys2Proof.core.run (bs.length + 2) s = .next t ∧
      t.result = .invalidLength ∧ t.rvar = v ∧ t.res = .zero

/-- R184. For every state, variant and field values that pass the checks and fit the variant, with the checksum rule
R107 gives: FRAME.CLEAR, the pushes of the built frame and VALIDATE of the same variant end with RESULT = 0, RVAR
the variant and the result registers equal to the fields bit for bit, NaN patterns included. -/
def Obligations.PacketRoundTrip : Prop :=
  ∀ (s : State) (v : Variant) (f : Fields),
    f.Valid s.cfg v → f.csum = frameChecksum s.cfg v f → s.pending = validateSequence v (buildFrame s.cfg v f) →
    ∃ t : State, Sys2Proof.core.run (frameLen v + 2) s = .next t ∧ t.result = .ok ∧ t.rvar = v ∧ t.res = f

/-- R157. For every variant and state VALIDATE answers a next state in which only RESULT, RVAR, the result registers and
the response differ. RESULT is decided in this order: FCNT is not the frame length; for B and C the last two bytes,
big-endian, differ from crc16 of those before; Price or Volume negative; Operation above 127; for C Expire below
946684800; else OK. On OK each register is the big-endian number of its bytes at the variant's offsets, 0 for a
field the variant lacks; else every register is 0. -/
def Obligations.ValidateIsTheOrderedDecode : Prop :=
  ∀ (v : Variant) (s : State), ∃ t, exec (.validate v) s = .next t ∧
    t = { s with result := t.result, rvar := v, res := t.res, response := .okay } ∧
    let F := frameBytes s.fb (frameLen v)
    let pr := if v = .c then 11 else 10
    let vo := if v = .c then 19 else 18
    let prof := if v = .b then s.cfg.crcB else s.cfg.crcC
    t.result =
      (if s.fcnt.toNat ≠ frameLen v then .invalidLength
       else if v ≠ .a ∧ beNat (F.drop (frameLen v - 2)) ≠ (crc16 prof (F.take (frameLen v - 2))).toNat then
         .checksumMismatch
       else if negAmount s.cfg.rejectNan (BitVec.ofNat 64 (beNat (slice pr 8 F))) = true ∨
           negAmount s.cfg.rejectNan (BitVec.ofNat 64 (beNat (slice vo 8 F))) = true then .negativeAmount
       else if 127 < beNat (slice 8 1 F) then .invalidOperation
       else if v = .c ∧ beNat (slice 27 8 F) < 946684800 then .invalidExpiration
       else .ok) ∧
    (t.result ≠ .ok → t.res = .zero) ∧
    (t.result = .ok →
      t.res.key.toNat = beNat (slice 0 8 F) ∧ t.res.op.toNat = beNat (slice 8 1 F) ∧
      t.res.asset.toNat = beNat (slice 9 (if v = .c then 2 else 1) F) ∧
      t.res.price.toNat = beNat (slice pr 8 F) ∧ t.res.volume.toNat = beNat (slice vo 8 F) ∧
      t.res.expire.toNat = (if v = .c then beNat (slice 27 8 F) else 0) ∧
      t.res.csum.toNat = (if v = .a then 0 else beNat (F.drop (frameLen v - 2))))

/-- R155. For every variant and state VALIDATE answers a next state, whose RESULT is InvalidLength iff FCNT is not L(v);
the lengths are 26, 28 and 37, so FCNT above 37 fails every variant. -/
def Obligations.InvalidLengthExactlyWhen : Prop :=
  ∀ (v : Variant) (s : State), ∃ t, exec (.validate v) s = .next t ∧
    (t.result = .invalidLength ↔ s.fcnt.toNat ≠ (match v with | .a => 26 | .b => 28 | .c => 37)) ∧
    (37 < s.fcnt.toNat → t.result = .invalidLength)

/-- R156. For every variant and state VALIDATE answers a next state, whose RESULT is ChecksumMismatch iff the variant is
B or C, the length is right, and the last two bytes, read big-endian, differ from crc16 of all bytes before them
under the variant's own profile. -/
def Obligations.ChecksumMismatchExactlyWhen : Prop :=
  ∀ (v : Variant) (s : State), ∃ t, exec (.validate v) s = .next t ∧
    (t.result = .checksumMismatch ↔
      (v = .b ∧ s.fcnt.toNat = 28 ∧
        beNat (slice 26 2 s.fb.toList) ≠ (crc16 s.cfg.crcB (s.fb.toList.take 26)).toNat) ∨
      (v = .c ∧ s.fcnt.toNat = 37 ∧
        beNat (slice 35 2 s.fb.toList) ≠ (crc16 s.cfg.crcC (s.fb.toList.take 35)).toNat))

/-- R159. For every variant and state VALIDATE answers a next state with a completed result: if it is not OK all seven
result registers are 0, and if it is OK they are all the fields parsed from this frame. -/
def Obligations.FailedValidateShowsNoField : Prop :=
  ∀ (v : Variant) (s : State), ∃ t, exec (.validate v) s = .next t ∧ t.result ≠ .noResult ∧
    (t.result ≠ .ok →
      t.res.key = 0 ∧ t.res.op = 0 ∧ t.res.asset = 0 ∧ t.res.price = 0 ∧ t.res.volume = 0 ∧ t.res.expire = 0 ∧
      t.res.csum = 0) ∧
    (t.result = .ok → t.res = parse v s.fb)

/-- R153. For every 64-bit pattern: isNaN is exponent 0x7FF with a fraction not 0; isNeg is the ordered comparison with
0 of the value the pattern stands for (false for NaN, true for -infinity); negAmount is isNeg, or also isNaN when
REJECT_NAN = 1. The eight rows of the rule's table hold under both settings. -/
def Obligations.NegativeAmountIsIeeeLess : Prop :=
  (∀ x : DWord,
    (isNaN x = true ↔ x.extractLsb' 52 11 = 0x7FF ∧ x.extractLsb' 0 52 ≠ 0) ∧
    (isNeg x = true ↔ x.msb = true ∧ x.extractLsb' 0 63 ≠ 0 ∧ isNaN x = false) ∧
    (isNeg x = true ↔ ieeeLtZero x) ∧
    (negAmount false x = true ↔ isNeg x = true) ∧
    (negAmount true x = true ↔ isNeg x = true ∨ isNaN x = true)) ∧
  (∀ r ∈ [((0x0000000000000000 : DWord), false, false), (0x8000000000000000, false, false),
      (0x8000000000000001, true, true), (0xBFF0000000000000, true, true), (0xFFF0000000000000, true, true),
      (0x7FF0000000000000, false, false), (0x7FF8000000000000, false, true), (0xFFF8000000000000, false, true)],
    negAmount false r.1 = r.2.1 ∧ negAmount true r.1 = r.2.2)

/-- R154. badOp is op > 127, which is bit 7 of op; badExpire is e < 946684800 as unsigned numbers, with no upper bound;
the field checks do not depend on Key or Asset; a Price or Volume with sign 0 that is no NaN is never negative,
however large. -/
def Obligations.RangePredicates : Prop :=
  (∀ op : Byte, (badOp op = true ↔ 127 < op.toNat) ∧ badOp op = op.msb) ∧
  (∀ e : DWord, badExpire e = true ↔ e.toNat < 946684800) ∧
  (∀ (cfg : Config) (v : Variant) (f : Fields) (k : DWord) (a : Half),
    checkFields cfg v { f with key := k, asset := a } = checkFields cfg v f) ∧
  (∀ (r : Bool) (x : DWord), x.msb = false → isNaN x = false → negAmount r x = false)

/-- R39. For any two states with the same parameters, FCNT and frame buffer bytes below FCNT, whatever else differs
(earlier results, the CRC generator, CMDERR), VALIDATE answers next states with the same RESULT and result
registers. -/
def Obligations.ValidateDependsOnItsInputsAlone : Prop :=
  ∀ (v : Variant) (s s' : State), s.cfg = s'.cfg → s.fcnt = s'.fcnt →
    (∀ (i : Nat) (h : i < 37), i < s.fcnt.toNat → s.fb[i] = s'.fb[i]) →
    ∃ t t', exec (.validate v) s = .next t ∧ exec (.validate v) s' = .next t' ∧
      t.result = t'.result ∧ t.rvar = t'.rvar ∧ t.res = t'.res

/-- R161. From every state whose next events are a VALIDATE in either format, then any events with no FRAME.CLEAR, no
push and no reset among them, then a second VALIDATE: both complete, and the second leaves the RESULT, RVAR and
result registers that its VALIDATE would have left in the first one's place; with the same operand these are the
ones the first left. Two in a row with the same operand leave the very same state, and with nothing in between the
second answers just what it would have answered without the first. -/
def Obligations.RepeatedValidateIsTheSame : Prop :=
  (∀ (v v' : Variant) (s : State) (first second : HostEvent) (evs rest : List HostEvent),
    first.performs = some (.validate v) → second.performs = some (.validate v') →
    (∀ e ∈ evs, e.changesFrame = false) →
    s.pending = first :: evs ++ second :: rest →
    ∃ a b c : State, step s = .next a ∧ Sys2Proof.core.run (evs.length + 2) s = .next b ∧
      exec (.validate v') s = .next c ∧ b.result = c.result ∧ b.rvar = c.rvar ∧ b.res = c.res ∧
      (v' = v → b.result = a.result ∧ b.rvar = a.rvar ∧ b.res = a.res)) ∧
  (∀ (v v' : Variant) (s : State), ∃ t, exec (.validate v) s = .next t ∧ exec (.validate v) t = .next t ∧
    exec (.validate v') t = exec (.validate v') s)

/-- 10_state.md R36; 93_implementation_defined.md I8. If two states agree in everything but frame buffer bytes at or
above FCNT, then after a step from each they agree so again: every response, register and flag is the same, for
every event. -/
def Obligations.UnpushedFrameBytesAreNeverObservable : Prop :=
  ∀ s t s' : State, SameVisible s t → step s = .next s' → ∃ t', step t = .next t' ∧ SameVisible s' t'

/-- 60_exceptions.md R201; 10_state.md R24. For every step that takes an event: CMDERR after it is 1 iff the event is a
write of an illegal command word, or CMDERR was 1 and the event is neither reset nor CLEAR.ERR. So CMDERR is sticky
and nothing else sets it. -/
def Obligations.CmdErrIsSetAndClearedAsStated : Prop :=
  ∀ (s t : State) (e : HostEvent) (rest : List HostEvent), s.pending = e :: rest → step s = .next t →
    (t.cmdErr = true ↔
      (∃ w, e.performs = some (.illegalCommandWord w)) ∨
      (s.cmdErr = true ∧ e ≠ .reset ∧ e.performs ≠ some .clearErr))

/-- 60_exceptions.md R202; 70_reset_and_hazards.md R230; 42_validate.md R159. A step whose event is neither reset nor
VALIDATE leaves RESULT, RVAR and all result registers as they were; and a step whose event is not reset never brings
RESULT back to 0xF. -/
def Obligations.OnlyValidateWritesTheResult : Prop :=
  ∀ (s t : State) (e : HostEvent) (rest : List HostEvent), s.pending = e :: rest → step s = .next t → e ≠ .reset →
    ((∀ v, e.performs ≠ some (.validate v)) → t.result = s.result ∧ t.rvar = s.rvar ∧ t.res = s.res) ∧
    (s.result ≠ .noResult → t.result ≠ .noResult)

/-- 10_state.md R35; 42_validate.md R160; 40_crc.md R104. A step whose event is neither CRC.INIT nor reset leaves CRCSEL
as it was; if it feeds no byte either it leaves CRC_ACC as it was, and if it feeds a byte CRC_ACC takes crc_step of
that byte under the profile CRCSEL selects. -/
def Obligations.OnlyCrcAccessesWriteTheCrc : Prop :=
  ∀ (s t : State) (e : HostEvent) (rest : List HostEvent), s.pending = e :: rest → step s = .next t →
    e.startsCrc = false →
    t.crcSel = s.crcSel ∧
    (e.fedByte = none → t.crcAcc = s.crcAcc) ∧
    (∀ b, e.fedByte = some b → t.crcAcc = crcStep (profileOf s.cfg s.crcSel) s.crcAcc b)

/-- 10_state.md R28, R36; 41_frame_buffer.md R130, R131. For every step that takes an event: a frame buffer byte that
differs afterwards is the one at index FCNT and the event is a write to FRAME_DATA; reset and FRAME.CLEAR change no
byte. FCNT is unchanged unless the event is such a write, FRAME.CLEAR or reset. -/
def Obligations.OnlyPushesWriteTheFrameBuffer : Prop :=
  ∀ (s t : State) (e : HostEvent) (rest : List HostEvent), s.pending = e :: rest → step s = .next t →
    (∀ (i : Nat) (h : i < 37), t.fb[i] ≠ s.fb[i] →
      i = s.fcnt.toNat ∧ ∃ w, e.performs = some (.wrFrameData w)) ∧
    (e ≠ .reset → e.performs ≠ some .frameClear → (∀ w, e.performs ≠ some (.wrFrameData w)) → t.fcnt = s.fcnt)

/-- 70_reset_and_hazards.md R230; 40_crc.md R104. From every state, CRC.INIT B then FRAME.CLEAR then CLEAR.ERR answer
next states, the last with CRC_ACC, CRCSEL, FCNT and CMDERR as the platform's reset leaves them and with RESULT,
RVAR, the result registers and the frame buffer as they were. -/
def Obligations.SoftwareReachesTheResetValues : Prop :=
  ∀ s : State, ∃ a b c, exec (.crcInit .crcB) s = .next a ∧ exec .frameClear a = .next b ∧ exec .clearErr b = .next c ∧
    c.crcAcc = (platformReset s).crcAcc ∧ c.crcSel = (platformReset s).crcSel ∧ c.fcnt = (platformReset s).fcnt ∧
    c.cmdErr = (platformReset s).cmdErr ∧ c.result = s.result ∧ c.rvar = s.rvar ∧ c.res = s.res ∧ c.fb = s.fb
end

