-- ==== Sys2Proof/Laws/Crc.lean ====
section
/-! SUPPORT. The CRC loop as arithmetic: it is linear over exclusive-or, and it is multiplication by x modulo the
generator x^16 + poly(x) over GF(2) (40_crc.md R100), so a single 1 bit never shifts away when poly is not 0. -/

namespace Sys2Proof.Machine

theorem crcShifts_add (poly : Half) (m n : Nat) (c : Half) :
    crcShifts poly (m + n) c = crcShifts poly n (crcShifts poly m c) := by
  induction m generalizing c with
  | zero => simp [crcShifts]
  | succ m ih => rw [Nat.succ_add]; exact ih _

/-- One turn of the CRC loop is linear over exclusive-or. -/
theorem crcShift_xor (poly c d : Half) : crcShift poly (c ^^^ d) = crcShift poly c ^^^ crcShift poly d := by
  unfold crcShift
  rw [BitVec.msb_xor, BitVec.shiftLeft_xor_distrib]
  cases c.msb <;> cases d.msb <;> simp <;> ext i <;> simp <;> grind

theorem crcShifts_xor (poly : Half) (n : Nat) (c d : Half) :
    crcShifts poly n (c ^^^ d) = crcShifts poly n c ^^^ crcShifts poly n d := by
  induction n generalizing c d with
  | zero => rfl
  | succ n ih => rw [crcShifts, crcShifts, crcShifts, crcShift_xor, ih]

theorem crc16_append (p : Profile) (as bs : List Byte) :
    crc16 p (as ++ bs) = crcFinal p (bs.foldl (crcStep p) (as.foldl (crcStep p) p.init)) := by
  rw [crc16, List.foldl_append]

/-- A difference in the bytes and in the register before a step is one difference after it. -/
theorem crcStep_xor (p : Profile) (c d : Half) (b e : Byte) :
    crcStep p (c ^^^ d) (b ^^^ e) =
      crcStep p c b ^^^ crcShifts p.poly 8 (d ^^^ ((crcInput p e).zeroExtend 16 <<< 8)) := by
  have hrev : rev8 (b ^^^ e) = rev8 b ^^^ rev8 e := by
    unfold rev8
    ext i hi
    simp [BitVec.getElem_reverse, BitVec.getMsbD_xor]
  unfold crcStep
  rw [← crcShifts_xor]
  apply congrArg
  unfold crcInput
  split
  · rw [hrev]
    ext i hi
    simp [BitVec.getElem_shiftLeft]
    grind
  · ext i hi
    simp [BitVec.getElem_shiftLeft]
    grind

/-- A difference in the register before some bytes, shifted through all of them. -/
theorem foldl_crcStep_xor (p : Profile) (bs : List Byte) (c d : Half) :
    bs.foldl (crcStep p) (c ^^^ d) = bs.foldl (crcStep p) c ^^^ crcShifts p.poly (8 * bs.length) d := by
  induction bs generalizing c d with
  | nil => rfl
  | cons b bs ih =>
    have h := crcStep_xor p c d b 0
    have hz : crcInput p 0 = 0 := by unfold crcInput; split <;> decide
    rw [hz] at h
    simp at h
    rw [List.foldl_cons, List.foldl_cons, List.length_cons, h, ih, Nat.mul_add, Nat.add_comm, crcShifts_add]

theorem crcFinal_injective {p : Profile} {a b : Half} (h : crcFinal p a = crcFinal p b) : a = b := by
  unfold crcFinal at h
  rw [BitVec.xor_left_inj] at h
  split at h
  · simpa [rev16] using congrArg BitVec.reverse h
  · exact h

/-! ### The register as a polynomial over GF(2) -/

open Polynomial

/-- The polynomial whose coefficients are the bits of a 16-bit value. -/
noncomputable def crcPoly (c : Half) : (ZMod 2)[X] :=
  ∑ i ∈ Finset.range 16, C (if c.getLsbD i then (1 : ZMod 2) else 0) * X ^ i

theorem crcPoly_coeff (c : Half) (k : Nat) : (crcPoly c).coeff k = if c.getLsbD k then 1 else 0 := by
  unfold crcPoly
  simp only [finsetSum_coeff, coeff_C_mul, coeff_X_pow]
  by_cases hk : k < 16
  · rw [Finset.sum_eq_single k]
    · simp
    · intro b _ hb; simp [Ne.symm hb]
    · intro h; simp at h; omega
  · rw [Finset.sum_eq_zero]
    · rw [BitVec.getLsbD_of_ge _ _ (by omega)]; simp
    · intro b hb; simp at hb; have : k ≠ b := by omega
      simp [this]

/-- One turn of the loop multiplies by x and, if bit 15 was 1, subtracts the generator. -/
theorem crcPoly_crcShift (poly c : Half) :
    crcPoly (crcShift poly c) = X * crcPoly c + (if c.msb then X ^ 16 + crcPoly poly else 0) := by
  ext k
  have hm : c.msb = c.getLsbD 15 := by simp [BitVec.msb_eq_getLsbD_last]
  cases k with
  | zero =>
    rw [coeff_add, coeff_X_mul_zero, crcPoly_coeff]
    unfold crcShift
    cases h : c.msb
    · simp
    · simp [crcPoly_coeff, coeff_X_pow]
  | succ k =>
    rw [coeff_add, coeff_X_mul, crcPoly_coeff, crcPoly_coeff]
    unfold crcShift
    by_cases hk : k = 15
    · subst hk
      cases h : c.msb
      · rw [hm] at h; simp at h; simp [h]
      · rw [hm] at h; simp at h; simp [h, crcPoly_coeff, coeff_X_pow]; decide
    · cases h : c.msb
      · simp
        by_cases h2 : k < 15
        · have : k + 1 < 16 := by omega
          simp [this]
        · rw [BitVec.getLsbD_of_ge c k (by omega)]; simp
      · simp only [if_true, coeff_add, coeff_X_pow, crcPoly_coeff]
        have : ¬ (k + 1 = 16) := by omega
        simp only [this, if_false, zero_add]
        rw [BitVec.getLsbD_xor]
        by_cases h2 : k < 15
        · have h3 : k + 1 < 16 := by omega
          have e : (c <<< 1).getLsbD (k+1) = c.getLsbD k := by rw [BitVec.getLsbD_shiftLeft]; simp [h3]
          rw [e]
          generalize c.getLsbD k = a
          generalize poly.getLsbD (k+1) = b
          cases a <;> cases b <;> decide
        · rw [BitVec.getLsbD_of_ge c k (by omega), BitVec.getLsbD_of_ge poly (k+1) (by omega)]; simp; omega

/-- The loop multiplies by a power of x modulo the generator. -/
theorem crcPoly_crcShifts (poly : Half) (n : Nat) (c : Half) :
    ∃ q, X ^ n * crcPoly c = crcPoly (crcShifts poly n c) + q * (X^16 + crcPoly poly) := by
  induction n generalizing c with
  | zero => exact ⟨0, by simp [crcShifts]⟩
  | succ n ih =>
    obtain ⟨q, hq⟩ := ih (crcShift poly c)
    rw [crcPoly_crcShift] at hq
    rw [crcShifts]
    have two : (2 : (ZMod 2)[X]) = 0 := by
      have : (2 : ZMod 2) = 0 := by decide
      rw [← C_ofNat, this, C_0]
    split at hq
    · refine ⟨q + X^n, ?_⟩
      have e : X^(n+1) * crcPoly c = X ^ n * (X * crcPoly c + (X^16 + crcPoly poly)) +
          X^n * (X^16 + crcPoly poly) - 2 * (X^n * (X^16 + crcPoly poly)) := by ring
      rw [e, hq, two]; ring
    · refine ⟨q, ?_⟩
      rw [← hq]; ring

theorem crcPoly_eq_zero (c : Half) (h : crcPoly c = 0) : c = 0 := by
  ext i hi
  have := crcPoly_coeff c i
  rw [h] at this
  simp at this
  simp [← BitVec.getLsbD_eq_getElem, this]

/-- A single 1 bit never shifts away: x^(n+k) is no multiple of a generator that is no monomial (40_crc.md R100). -/
theorem crcShifts_bit_ne_zero (poly : Half) (hp : poly ≠ 0) (n k : Nat) (hk : k < 16) :
    crcShifts poly n (1#16 <<< k) ≠ 0 := by
  intro h0
  obtain ⟨q, hq⟩ := crcPoly_crcShifts poly n (1#16 <<< k)
  have z : crcPoly (0 : Half) = 0 := by ext i; simp [crcPoly_coeff]
  have m : crcPoly (1#16 <<< k) = X ^ k := by
    ext i; rw [crcPoly_coeff, coeff_X_pow]
    by_cases h : i = k
    · subst h; simp [hk]
    · simp [h]; intro a b; omega
  rw [h0, z, m, zero_add, ← pow_add] at hq
  have hd : (X^16 + crcPoly poly) ∣ (X : (ZMod 2)[X]) ^ (n+k) := ⟨q, by rw [hq]; ring⟩
  rw [dvd_prime_pow Polynomial.prime_X] at hd
  obtain ⟨i, _, hi⟩ := hd
  have hdeg : (crcPoly poly).degree < 16 := by
    refine (Polynomial.degree_lt_iff_coeff_zero _ 16).2 ?_
    intro m hm
    rw [crcPoly_coeff, BitVec.getLsbD_of_ge _ _ hm]; simp
  have hmon : (X^16 + crcPoly poly).Monic := monic_X_pow_add hdeg
  have he := eq_of_monic_of_associated hmon (monic_X_pow i) hi
  have hi16 : i = 16 := by
    have h1 : (X^16 + crcPoly poly).natDegree = 16 := by
      apply natDegree_eq_of_degree_eq_some
      rw [degree_add_eq_left_of_degree_lt]
      · simp
      · simpa using hdeg
    rw [he, natDegree_X_pow] at h1; exact h1
  rw [hi16] at he
  have : crcPoly poly = 0 := by simpa using he
  exact hp (crcPoly_eq_zero _ this)

end Sys2Proof.Machine
end

