-- ==== Sys2Proof/Laws/Decode.lean ====
section
/-! SUPPORT. The decoder taken apart once: what the admission check says, how a row is selected, and the fields of a
command word. -/

namespace Sys2Proof

@[simp] theorem key_rd (off : Offset) (size : AccessSize) :
    Access.key { dir := .rd, off := off, size := size } = (0 : BitVec 1) ++ off := rfl

@[simp] theorem key_wr (w : Word) (off : Offset) (size : AccessSize) :
    Access.key { dir := .wr w, off := off, size := size } = (1 : BitVec 1) ++ off := rfl

/-- An access that the admission check rejects decodes to its own row, whatever its offset. -/
theorem decodeBus_of_not_admitted {a : Access} (h : a.admitted = false) : decodeBus a = .nonWordOrMisaligned a := by
  simp [decodeBus, h]

/-- An admitted access decodes to what the row of its key builds. -/
theorem decodeBus_of_row {a : Access} {k : BitVec 8} {r : BusRow} (h : a.admitted = true) (hk : a.key = k)
    (hr : busRow? k = some r) : decodeBus a = r.build a := by
  subst hk
  simp [decodeBus, h, hr]

/-- Four bytes at a word-aligned offset are admitted, in either direction. -/
theorem admitted_word (d : Dir) {off : Offset} (h : off.extractLsb' 0 2 = 0) :
    Access.admitted { dir := d, off := off, size := .word } = true := by simp [Access.admitted, h]

theorem offset_of_low_zero : ∀ o : Offset, o.extractLsb' 0 2 = 0 → o = o.extractLsb' 2 5 ++ (0 : BitVec 2) := by
  decide

/-- An admitted access has four bytes and one of the 32 word-aligned offsets. -/
theorem admitted_iff {a : Access} :
    a.admitted = true ↔ a.size = .word ∧ ∃ k : BitVec 5, a.off = k ++ (0 : BitVec 2) := by
  unfold Access.admitted
  rw [Bool.and_eq_true, beq_iff_eq, beq_iff_eq]
  refine and_congr Iff.rfl ⟨fun h => ⟨_, offset_of_low_zero _ h⟩, ?_⟩
  rintro ⟨k, hk⟩
  rw [hk]
  exact (by decide : ∀ k : BitVec 5, (k ++ (0 : BitVec 2)).extractLsb' 0 2 = 0) k

/-- A command word is its three fields (30_encoding.md R71). -/
theorem word_eq_fields (w : Word) : w = cmdZero w ++ cmdVar w ++ cmdOpc w := by
  have h : ∀ z : Word, (z.extractLsb' 10 22 : BitVec 22).toNat * 1024 + (z.extractLsb' 8 2 : BitVec 2).toNat * 256 +
      (z.extractLsb' 0 8 : BitVec 8).toNat = z.toNat := by
    intro z
    have := z.isLt
    simp [BitVec.extractLsb'_toNat, Nat.shiftRight_eq_div_pow]
    omega
  apply BitVec.eq_of_toNat_eq
  rw [BitVec.toNat_append, BitVec.toNat_append, ← h w, ← Nat.shiftLeft_add_eq_or_of_lt (BitVec.isLt _),
    ← Nat.shiftLeft_add_eq_or_of_lt (BitVec.isLt _)]
  simp only [Nat.shiftLeft_eq, cmdZero, cmdVar, cmdOpc]
  omega

/-- No operation resolves to a write to CMD: its command word is decoded. -/
theorem resolve_ne_wrCmd (i : Instr) (w : Word) : i.resolve ≠ .wrCmd w := by
  cases i <;> simp [Instr.resolve]
  rename_i v
  cases decodeCommand v <;> simp [Command.toInstr]

end Sys2Proof
end

