-- ==== Sys2Proof/Laws/State.lean ====
section
/-! SUPPORT. One lemma per field per update of State, so that no proof unfolds a record update. -/

namespace Sys2Proof.Machine

@[simp] theorem okay_crcAcc (s : State) : (okay s).crcAcc = s.crcAcc := rfl
@[simp] theorem okay_crcSel (s : State) : (okay s).crcSel = s.crcSel := rfl
@[simp] theorem okay_fcnt (s : State) : (okay s).fcnt = s.fcnt := rfl
@[simp] theorem okay_fb (s : State) : (okay s).fb = s.fb := rfl
@[simp] theorem okay_result (s : State) : (okay s).result = s.result := rfl
@[simp] theorem okay_rvar (s : State) : (okay s).rvar = s.rvar := rfl
@[simp] theorem okay_cmdErr (s : State) : (okay s).cmdErr = s.cmdErr := rfl
@[simp] theorem okay_res (s : State) : (okay s).res = s.res := rfl
@[simp] theorem okay_cfg (s : State) : (okay s).cfg = s.cfg := rfl
@[simp] theorem okay_pending (s : State) : (okay s).pending = s.pending := rfl
@[simp] theorem okay_response (s : State) : (okay s).response = .okay := rfl

@[simp] theorem answer_crcAcc (v : Word) (s : State) : (answer v s).crcAcc = s.crcAcc := rfl
@[simp] theorem answer_crcSel (v : Word) (s : State) : (answer v s).crcSel = s.crcSel := rfl
@[simp] theorem answer_fcnt (v : Word) (s : State) : (answer v s).fcnt = s.fcnt := rfl
@[simp] theorem answer_fb (v : Word) (s : State) : (answer v s).fb = s.fb := rfl
@[simp] theorem answer_result (v : Word) (s : State) : (answer v s).result = s.result := rfl
@[simp] theorem answer_rvar (v : Word) (s : State) : (answer v s).rvar = s.rvar := rfl
@[simp] theorem answer_cmdErr (v : Word) (s : State) : (answer v s).cmdErr = s.cmdErr := rfl
@[simp] theorem answer_res (v : Word) (s : State) : (answer v s).res = s.res := rfl
@[simp] theorem answer_cfg (v : Word) (s : State) : (answer v s).cfg = s.cfg := rfl
@[simp] theorem answer_pending (v : Word) (s : State) : (answer v s).pending = s.pending := rfl
@[simp] theorem answer_response (v : Word) (s : State) : (answer v s).response = .okayData v := rfl

@[simp] theorem raiseBusError_crcAcc (s : State) : (raiseBusError s).crcAcc = s.crcAcc := rfl
@[simp] theorem raiseBusError_crcSel (s : State) : (raiseBusError s).crcSel = s.crcSel := rfl
@[simp] theorem raiseBusError_fcnt (s : State) : (raiseBusError s).fcnt = s.fcnt := rfl
@[simp] theorem raiseBusError_fb (s : State) : (raiseBusError s).fb = s.fb := rfl
@[simp] theorem raiseBusError_result (s : State) : (raiseBusError s).result = s.result := rfl
@[simp] theorem raiseBusError_rvar (s : State) : (raiseBusError s).rvar = s.rvar := rfl
@[simp] theorem raiseBusError_cmdErr (s : State) : (raiseBusError s).cmdErr = s.cmdErr := rfl
@[simp] theorem raiseBusError_res (s : State) : (raiseBusError s).res = s.res := rfl
@[simp] theorem raiseBusError_cfg (s : State) : (raiseBusError s).cfg = s.cfg := rfl
@[simp] theorem raiseBusError_pending (s : State) : (raiseBusError s).pending = s.pending := rfl
@[simp] theorem raiseBusError_response (s : State) : (raiseBusError s).response = .busErr := rfl

@[simp] theorem raiseCmdError_crcAcc (s : State) : (raiseCmdError s).crcAcc = s.crcAcc := rfl
@[simp] theorem raiseCmdError_crcSel (s : State) : (raiseCmdError s).crcSel = s.crcSel := rfl
@[simp] theorem raiseCmdError_fcnt (s : State) : (raiseCmdError s).fcnt = s.fcnt := rfl
@[simp] theorem raiseCmdError_fb (s : State) : (raiseCmdError s).fb = s.fb := rfl
@[simp] theorem raiseCmdError_result (s : State) : (raiseCmdError s).result = s.result := rfl
@[simp] theorem raiseCmdError_rvar (s : State) : (raiseCmdError s).rvar = s.rvar := rfl
@[simp] theorem raiseCmdError_cmdErr (s : State) : (raiseCmdError s).cmdErr = true := rfl
@[simp] theorem raiseCmdError_res (s : State) : (raiseCmdError s).res = s.res := rfl
@[simp] theorem raiseCmdError_cfg (s : State) : (raiseCmdError s).cfg = s.cfg := rfl
@[simp] theorem raiseCmdError_pending (s : State) : (raiseCmdError s).pending = s.pending := rfl
@[simp] theorem raiseCmdError_response (s : State) : (raiseCmdError s).response = .okay := rfl

@[simp] theorem setCrc_crcAcc (sel : ProfileSel) (c : Half) (s : State) : (setCrc sel c s).crcAcc = c := rfl
@[simp] theorem setCrc_crcSel (sel : ProfileSel) (c : Half) (s : State) : (setCrc sel c s).crcSel = sel := rfl
@[simp] theorem setCrc_fcnt (sel : ProfileSel) (c : Half) (s : State) : (setCrc sel c s).fcnt = s.fcnt := rfl
@[simp] theorem setCrc_fb (sel : ProfileSel) (c : Half) (s : State) : (setCrc sel c s).fb = s.fb := rfl
@[simp] theorem setCrc_result (sel : ProfileSel) (c : Half) (s : State) :
    (setCrc sel c s).result = s.result := rfl
@[simp] theorem setCrc_rvar (sel : ProfileSel) (c : Half) (s : State) : (setCrc sel c s).rvar = s.rvar := rfl
@[simp] theorem setCrc_cmdErr (sel : ProfileSel) (c : Half) (s : State) :
    (setCrc sel c s).cmdErr = s.cmdErr := rfl
@[simp] theorem setCrc_res (sel : ProfileSel) (c : Half) (s : State) : (setCrc sel c s).res = s.res := rfl
@[simp] theorem setCrc_cfg (sel : ProfileSel) (c : Half) (s : State) : (setCrc sel c s).cfg = s.cfg := rfl
@[simp] theorem setCrc_pending (sel : ProfileSel) (c : Half) (s : State) :
    (setCrc sel c s).pending = s.pending := rfl
@[simp] theorem setCrc_response (sel : ProfileSel) (c : Half) (s : State) :
    (setCrc sel c s).response = s.response := rfl

@[simp] theorem feedByte_crcAcc (b : Byte) (s : State) :
    (feedByte b s).crcAcc = crcStep (profileOf s.cfg s.crcSel) s.crcAcc b := rfl
@[simp] theorem feedByte_crcSel (b : Byte) (s : State) : (feedByte b s).crcSel = s.crcSel := rfl
@[simp] theorem feedByte_fcnt (b : Byte) (s : State) : (feedByte b s).fcnt = s.fcnt := rfl
@[simp] theorem feedByte_fb (b : Byte) (s : State) : (feedByte b s).fb = s.fb := rfl
@[simp] theorem feedByte_result (b : Byte) (s : State) : (feedByte b s).result = s.result := rfl
@[simp] theorem feedByte_rvar (b : Byte) (s : State) : (feedByte b s).rvar = s.rvar := rfl
@[simp] theorem feedByte_cmdErr (b : Byte) (s : State) : (feedByte b s).cmdErr = s.cmdErr := rfl
@[simp] theorem feedByte_res (b : Byte) (s : State) : (feedByte b s).res = s.res := rfl
@[simp] theorem feedByte_cfg (b : Byte) (s : State) : (feedByte b s).cfg = s.cfg := rfl
@[simp] theorem feedByte_pending (b : Byte) (s : State) : (feedByte b s).pending = s.pending := rfl
@[simp] theorem feedByte_response (b : Byte) (s : State) : (feedByte b s).response = s.response := rfl

@[simp] theorem clearFrame_crcAcc (s : State) : (clearFrame s).crcAcc = s.crcAcc := rfl
@[simp] theorem clearFrame_crcSel (s : State) : (clearFrame s).crcSel = s.crcSel := rfl
@[simp] theorem clearFrame_fcnt (s : State) : (clearFrame s).fcnt = 0 := rfl
@[simp] theorem clearFrame_fb (s : State) : (clearFrame s).fb = s.fb := rfl
@[simp] theorem clearFrame_result (s : State) : (clearFrame s).result = s.result := rfl
@[simp] theorem clearFrame_rvar (s : State) : (clearFrame s).rvar = s.rvar := rfl
@[simp] theorem clearFrame_cmdErr (s : State) : (clearFrame s).cmdErr = s.cmdErr := rfl
@[simp] theorem clearFrame_res (s : State) : (clearFrame s).res = s.res := rfl
@[simp] theorem clearFrame_cfg (s : State) : (clearFrame s).cfg = s.cfg := rfl
@[simp] theorem clearFrame_pending (s : State) : (clearFrame s).pending = s.pending := rfl
@[simp] theorem clearFrame_response (s : State) : (clearFrame s).response = s.response := rfl

@[simp] theorem pushByte_crcAcc (b : Byte) (s : State) : (pushByte b s).crcAcc = s.crcAcc := rfl
@[simp] theorem pushByte_crcSel (b : Byte) (s : State) : (pushByte b s).crcSel = s.crcSel := rfl
@[simp] theorem pushByte_fcnt (b : Byte) (s : State) : (pushByte b s).fcnt = countByte s.fcnt := rfl
@[simp] theorem pushByte_fb (b : Byte) (s : State) : (pushByte b s).fb = storeByte s.fb s.fcnt b := rfl
@[simp] theorem pushByte_result (b : Byte) (s : State) : (pushByte b s).result = s.result := rfl
@[simp] theorem pushByte_rvar (b : Byte) (s : State) : (pushByte b s).rvar = s.rvar := rfl
@[simp] theorem pushByte_cmdErr (b : Byte) (s : State) : (pushByte b s).cmdErr = s.cmdErr := rfl
@[simp] theorem pushByte_res (b : Byte) (s : State) : (pushByte b s).res = s.res := rfl
@[simp] theorem pushByte_cfg (b : Byte) (s : State) : (pushByte b s).cfg = s.cfg := rfl
@[simp] theorem pushByte_pending (b : Byte) (s : State) : (pushByte b s).pending = s.pending := rfl
@[simp] theorem pushByte_response (b : Byte) (s : State) : (pushByte b s).response = s.response := rfl

@[simp] theorem clearCmdErr_crcAcc (s : State) : (clearCmdErr s).crcAcc = s.crcAcc := rfl
@[simp] theorem clearCmdErr_crcSel (s : State) : (clearCmdErr s).crcSel = s.crcSel := rfl
@[simp] theorem clearCmdErr_fcnt (s : State) : (clearCmdErr s).fcnt = s.fcnt := rfl
@[simp] theorem clearCmdErr_fb (s : State) : (clearCmdErr s).fb = s.fb := rfl
@[simp] theorem clearCmdErr_result (s : State) : (clearCmdErr s).result = s.result := rfl
@[simp] theorem clearCmdErr_rvar (s : State) : (clearCmdErr s).rvar = s.rvar := rfl
@[simp] theorem clearCmdErr_cmdErr (s : State) : (clearCmdErr s).cmdErr = false := rfl
@[simp] theorem clearCmdErr_res (s : State) : (clearCmdErr s).res = s.res := rfl
@[simp] theorem clearCmdErr_cfg (s : State) : (clearCmdErr s).cfg = s.cfg := rfl
@[simp] theorem clearCmdErr_pending (s : State) : (clearCmdErr s).pending = s.pending := rfl
@[simp] theorem clearCmdErr_response (s : State) : (clearCmdErr s).response = s.response := rfl

@[simp] theorem setOutcome_crcAcc (code : ResultCode) (v : Variant) (f : Fields) (s : State) :
    (setOutcome code v f s).crcAcc = s.crcAcc := rfl
@[simp] theorem setOutcome_crcSel (code : ResultCode) (v : Variant) (f : Fields) (s : State) :
    (setOutcome code v f s).crcSel = s.crcSel := rfl
@[simp] theorem setOutcome_fcnt (code : ResultCode) (v : Variant) (f : Fields) (s : State) :
    (setOutcome code v f s).fcnt = s.fcnt := rfl
@[simp] theorem setOutcome_fb (code : ResultCode) (v : Variant) (f : Fields) (s : State) :
    (setOutcome code v f s).fb = s.fb := rfl
@[simp] theorem setOutcome_result (code : ResultCode) (v : Variant) (f : Fields) (s : State) :
    (setOutcome code v f s).result = code := rfl
@[simp] theorem setOutcome_rvar (code : ResultCode) (v : Variant) (f : Fields) (s : State) :
    (setOutcome code v f s).rvar = v := rfl
@[simp] theorem setOutcome_cmdErr (code : ResultCode) (v : Variant) (f : Fields) (s : State) :
    (setOutcome code v f s).cmdErr = s.cmdErr := rfl
@[simp] theorem setOutcome_res (code : ResultCode) (v : Variant) (f : Fields) (s : State) :
    (setOutcome code v f s).res = f := rfl
@[simp] theorem setOutcome_cfg (code : ResultCode) (v : Variant) (f : Fields) (s : State) :
    (setOutcome code v f s).cfg = s.cfg := rfl
@[simp] theorem setOutcome_pending (code : ResultCode) (v : Variant) (f : Fields) (s : State) :
    (setOutcome code v f s).pending = s.pending := rfl
@[simp] theorem setOutcome_response (code : ResultCode) (v : Variant) (f : Fields) (s : State) :
    (setOutcome code v f s).response = s.response := rfl

@[simp] theorem arrive_crcAcc (e : HostEvent) (s : State) : (arrive e s).crcAcc = s.crcAcc := rfl
@[simp] theorem arrive_crcSel (e : HostEvent) (s : State) : (arrive e s).crcSel = s.crcSel := rfl
@[simp] theorem arrive_fcnt (e : HostEvent) (s : State) : (arrive e s).fcnt = s.fcnt := rfl
@[simp] theorem arrive_fb (e : HostEvent) (s : State) : (arrive e s).fb = s.fb := rfl
@[simp] theorem arrive_result (e : HostEvent) (s : State) : (arrive e s).result = s.result := rfl
@[simp] theorem arrive_rvar (e : HostEvent) (s : State) : (arrive e s).rvar = s.rvar := rfl
@[simp] theorem arrive_cmdErr (e : HostEvent) (s : State) : (arrive e s).cmdErr = s.cmdErr := rfl
@[simp] theorem arrive_res (e : HostEvent) (s : State) : (arrive e s).res = s.res := rfl
@[simp] theorem arrive_cfg (e : HostEvent) (s : State) : (arrive e s).cfg = s.cfg := rfl
@[simp] theorem arrive_pending (e : HostEvent) (s : State) : (arrive e s).pending = e :: s.pending := rfl
@[simp] theorem arrive_response (e : HostEvent) (s : State) : (arrive e s).response = s.response := rfl

@[simp] theorem platformReset_crcAcc (s : State) : (platformReset s).crcAcc = s.cfg.crcB.init := rfl
@[simp] theorem platformReset_crcSel (s : State) : (platformReset s).crcSel = .crcB := rfl
@[simp] theorem platformReset_fcnt (s : State) : (platformReset s).fcnt = 0 := rfl
@[simp] theorem platformReset_fb (s : State) : (platformReset s).fb = s.fb := rfl
@[simp] theorem platformReset_result (s : State) : (platformReset s).result = .noResult := rfl
@[simp] theorem platformReset_rvar (s : State) : (platformReset s).rvar = .a := rfl
@[simp] theorem platformReset_cmdErr (s : State) : (platformReset s).cmdErr = false := rfl
@[simp] theorem platformReset_res (s : State) : (platformReset s).res = .zero := rfl
@[simp] theorem platformReset_cfg (s : State) : (platformReset s).cfg = s.cfg := rfl
@[simp] theorem platformReset_pending (s : State) : (platformReset s).pending = s.pending := rfl
@[simp] theorem platformReset_response (s : State) : (platformReset s).response = .idle := rfl

@[simp] theorem afterReset_crcAcc (cfg : Config) (fb : FrameBuf) :
    (State.afterReset cfg fb).crcAcc = cfg.crcB.init := rfl
@[simp] theorem afterReset_crcSel (cfg : Config) (fb : FrameBuf) :
    (State.afterReset cfg fb).crcSel = .crcB := rfl
@[simp] theorem afterReset_fcnt (cfg : Config) (fb : FrameBuf) : (State.afterReset cfg fb).fcnt = 0 := rfl
@[simp] theorem afterReset_fb (cfg : Config) (fb : FrameBuf) : (State.afterReset cfg fb).fb = fb := rfl
@[simp] theorem afterReset_result (cfg : Config) (fb : FrameBuf) :
    (State.afterReset cfg fb).result = .noResult := rfl
@[simp] theorem afterReset_rvar (cfg : Config) (fb : FrameBuf) : (State.afterReset cfg fb).rvar = .a := rfl
@[simp] theorem afterReset_cmdErr (cfg : Config) (fb : FrameBuf) :
    (State.afterReset cfg fb).cmdErr = false := rfl
@[simp] theorem afterReset_res (cfg : Config) (fb : FrameBuf) : (State.afterReset cfg fb).res = .zero := rfl
@[simp] theorem afterReset_cfg (cfg : Config) (fb : FrameBuf) : (State.afterReset cfg fb).cfg = cfg := rfl
@[simp] theorem afterReset_pending (cfg : Config) (fb : FrameBuf) :
    (State.afterReset cfg fb).pending = [] := rfl
@[simp] theorem afterReset_response (cfg : Config) (fb : FrameBuf) :
    (State.afterReset cfg fb).response = .idle := rfl

end Sys2Proof.Machine
end

