-- ==== Sys2Proof/Laws/Ops.lean ====
section
/-! SUPPORT. What each shared operation does, said once, so that proofs cite these lemmas instead of unfolding it. -/

namespace Sys2Proof.Machine

/-! ### Host events -/

theorem fetch_nil {s : State} (h : s.pending = []) : fetch s = none := by simp [fetch, h]

theorem fetch_cons {s : State} {e : HostEvent} {rest : List HostEvent} (h : s.pending = e :: rest) :
    fetch s = some (e, { s with pending := rest }) := by simp [fetch, h]

/-- Fetching takes the head of the pending events and changes nothing else. -/
theorem fetch_some {s s' : State} {e : HostEvent} (h : fetch s = some (e, s')) :
    s.pending = e :: s'.pending ∧ s' = { s with pending := s.pending.tail } := by
  unfold fetch at h
  split at h
  · cases h
  · rename_i e' rest hp
    cases h
    exact ⟨hp, by rw [hp]; rfl⟩

/-- What arrives first is fetched first. -/
@[simp] theorem fetch_arrive (e : HostEvent) (s : State) : fetch (arrive e s) = some (e, s) := rfl

/-! ### The frame buffer and its counter -/

/-- A stored byte lands at index FCNT if there is room, and every other byte stays. -/
theorem storeByte_getElem (fb : FrameBuf) (n : Half) (b : Byte) (i : Nat) (h : i < fbDepth) :
    (storeByte fb n b)[i] = if n.toNat = i then b else fb[i] := by
  unfold storeByte
  split
  · rw [Vector.getElem_set]
  · rename_i hn
    rw [if_neg (by omega)]

/-- The count saturates at 0xFFFF and never wraps. -/
theorem countByte_toNat (n : Half) : (countByte n).toNat = min (n.toNat + 1) 0xFFFF := by
  unfold countByte
  have := n.isLt
  split
  · rename_i h
    rw [BitVec.lt_def] at h
    rw [BitVec.toNat_add]
    simp at h ⊢
    omega
  · rename_i h
    rw [BitVec.lt_def] at h
    simp at h ⊢
    omega

theorem frameBytes_length {fb : FrameBuf} {n : Nat} (h : n ≤ fbDepth) : (frameBytes fb n).length = n := by
  simp [frameBytes]
  omega

/-- Byte `i` of the first `n` bytes of the frame buffer. -/
theorem frameBytes_getElem? (fb : FrameBuf) (n i : Nat) (h : i < fbDepth) (hn : i < n) :
    (frameBytes fb n)[i]? = some fb[i] := by
  rw [frameBytes, List.getElem?_take_of_lt hn]
  simp [h]

/-- Frame buffers that agree below `n` have the same first `n` bytes. -/
theorem frameBytes_congr {fb fb' : FrameBuf} {n : Nat}
    (h : ∀ (i : Nat) (hi : i < fbDepth), i < n → fb[i] = fb'[i]) : frameBytes fb n = frameBytes fb' n := by
  apply List.ext_getElem?
  intro i
  by_cases hn : i < n
  · by_cases hi : i < fbDepth
    · rw [frameBytes_getElem? _ _ _ hi hn, frameBytes_getElem? _ _ _ hi hn, h i hi hn]
    · simp [frameBytes, hi]
  · simp [frameBytes, hn]

/-! ### Validation -/

theorem frameLen_le (v : Variant) : frameLen v ≤ fbDepth := by cases v <;> decide

/-- A completed VALIDATE has a result. -/
theorem checkFields_ne_noResult (cfg : Config) (v : Variant) (f : Fields) : checkFields cfg v f ≠ .noResult := by
  unfold checkFields
  repeat' split
  all_goals simp

theorem validateCode_ne_noResult (cfg : Config) (v : Variant) (n : Half) (fb : FrameBuf) :
    validateCode cfg v n fb ≠ .noResult := by
  unfold validateCode
  repeat' split
  · simp
  · simp
  · exact checkFields_ne_noResult _ _ _

/-- Everything that a result of OK says: the length and the checksum are right and every field check passed. -/
theorem validateCode_eq_ok {cfg : Config} {v : Variant} {n : Half} {fb : FrameBuf} :
    validateCode cfg v n fb = .ok ↔
      n.toNat = frameLen v ∧ badChecksum cfg v fb = false ∧ checkFields cfg v (parse v fb) = .ok := by
  unfold validateCode
  repeat' split
  all_goals simp_all

/-- Everything that passed field checks say. -/
theorem checkFields_eq_ok {cfg : Config} {v : Variant} {f : Fields} :
    checkFields cfg v f = .ok ↔
      negAmount cfg.rejectNan f.price = false ∧ negAmount cfg.rejectNan f.volume = false ∧ badOp f.op = false ∧
        (v = .c → badExpire f.expire = false) := by
  unfold checkFields
  cases negAmount cfg.rejectNan f.price <;> cases negAmount cfg.rejectNan f.volume <;> cases badOp f.op <;>
    cases v <;> cases badExpire f.expire <;> simp

theorem validateFields_of_ok {cfg : Config} {v : Variant} {n : Half} {fb : FrameBuf}
    (h : validateCode cfg v n fb = .ok) : validateFields cfg v n fb = parse v fb := if_pos h

theorem validateFields_of_not_ok {cfg : Config} {v : Variant} {n : Half} {fb : FrameBuf}
    (h : validateCode cfg v n fb ≠ .ok) : validateFields cfg v n fb = .zero := if_neg h

end Sys2Proof.Machine
end

