-- ==== Sys2Proof/Laws/Step.lean ====
section
/-! SUPPORT. What a step can do, said once: the three kinds of step, and the eight kinds of next state that an
operation can have. -/

namespace Sys2Proof.Machine

theorem step_nil {s : State} (h : s.pending = []) : step s = .next s := by simp [step, fetch_nil h]

theorem step_reset {s : State} {rest : List HostEvent} (h : s.pending = .reset :: rest) :
    step s = .next (platformReset { s with pending := rest }) := by simp [step, fetch_cons h]

theorem step_op {s : State} {o : Operation} {rest : List HostEvent} (h : s.pending = .op o :: rest) :
    step s = exec (decode o) { s with pending := rest } := by simp [step, fetch_cons h]

/-- Everything an operation can do: answer with nothing changed, or one of the seven updates that the rules name. -/
theorem exec_effect {i : Instr} {s t : State} (h : exec i s = .next t) :
    (∃ r, t = { s with response := r }) ∨
    (∃ p, t = okay (setCrc p (profileOf s.cfg p).init s)) ∨
    (∃ b, t = okay (feedByte b s)) ∨
    t = okay (clearFrame s) ∨
    (∃ b, t = okay (pushByte b s)) ∨
    (∃ v, t = okay (setOutcome (validateCode s.cfg v s.fcnt s.fb) v (validateFields s.cfg v s.fcnt s.fb) s)) ∨
    t = okay (clearCmdErr s) ∨
    t = raiseCmdError s := by
  cases i
  case crcInit p => cases h; exact .inr (.inl ⟨p, rfl⟩)
  case frameClear => cases h; exact .inr (.inr (.inr (.inl rfl)))
  case validate v => cases h; exact .inr (.inr (.inr (.inr (.inr (.inl ⟨v, rfl⟩)))))
  case clearErr => cases h; exact .inr (.inr (.inr (.inr (.inr (.inr (.inl rfl))))))
  case illegalCommandWord w => cases h; exact .inr (.inr (.inr (.inr (.inr (.inr (.inr rfl))))))
  case wrCrcData w => cases h; exact .inr (.inr (.inl ⟨_, rfl⟩))
  case wrFrameData w => cases h; exact .inr (.inr (.inr (.inr (.inl ⟨_, rfl⟩))))
  case wrCmd w =>
    change execWrCmd w s = _ at h
    unfold execWrCmd at h
    cases hc : decodeCommand w <;> rw [hc] at h <;> cases h
    · exact .inr (.inl ⟨_, rfl⟩)
    · exact .inr (.inr (.inr (.inl rfl)))
    · exact .inr (.inr (.inr (.inr (.inr (.inl ⟨_, rfl⟩)))))
    · exact .inr (.inr (.inr (.inr (.inr (.inr (.inl rfl))))))
    · exact .inr (.inr (.inr (.inr (.inr (.inr (.inr rfl))))))
  all_goals cases h; exact .inl ⟨_, rfl⟩

end Sys2Proof.Machine
end

