-- ==== Sys2Proof/Laws/Event.lean ====
section
/-! SUPPORT. What a host event performs, said once: a step is reset, or exec of the row that its event performs, and the
events that start a CRC or change the frame are named by that row. -/

namespace Sys2Proof.Machine

@[simp] theorem performs_op (o : Operation) : (HostEvent.op o).performs = some (decode o).resolve := rfl

@[simp] theorem performs_reset : HostEvent.reset.performs = none := rfl

@[simp] theorem startsCrc_reset : HostEvent.reset.startsCrc = true := rfl

@[simp] theorem changesFrame_reset : HostEvent.reset.changesFrame = true := rfl

@[simp] theorem fedByte_reset : HostEvent.reset.fedByte = none := rfl

theorem toInstr_ne_wrCmd (c : Command) (w : Word) : c.toInstr ≠ .wrCmd w := by cases c <;> simp [Command.toInstr]

/-- The row that is performed is never WR_CMD itself (30_encoding.md R73). -/
theorem resolve_ne_wrCmd (i : Instr) (w : Word) : i.resolve ≠ .wrCmd w := by
  cases i <;> simp [Instr.resolve, toInstr_ne_wrCmd]

/-- An event that starts no CRC performs a row, and that row is no CRC.INIT. -/
theorem startsCrc_eq_false {e : HostEvent} (h : e.startsCrc = false) :
    ∃ i, e.performs = some i ∧ ∀ p, i ≠ .crcInit p := by
  unfold HostEvent.startsCrc at h
  cases hp : e.performs with
  | none => simp [hp] at h
  | some i => exact ⟨i, rfl, fun p hi => by subst hi; simp [hp] at h⟩

/-- An event that changes no frame performs a row, and that row is neither FRAME.CLEAR nor a push. -/
theorem changesFrame_eq_false {e : HostEvent} (h : e.changesFrame = false) :
    ∃ i, e.performs = some i ∧ i ≠ .frameClear ∧ ∀ w, i ≠ .wrFrameData w := by
  unfold HostEvent.changesFrame at h
  cases hp : e.performs with
  | none => simp [hp] at h
  | some i => exact ⟨i, rfl, fun hi => by subst hi; simp [hp] at h, fun w hi => by subst hi; simp [hp] at h⟩

end Sys2Proof.Machine
end

