-- ==== Sys2Proof/Laws/Frame.lean ====
section
/-! SUPPORT. Big-endian fields of the frame buffer as numbers, as bytes and as slices of the frame. -/

namespace Sys2Proof.Machine

theorem append_byte_toNat {n : Nat} (x : BitVec n) (b : Byte) : (x ++ b).toNat = 256 * x.toNat + b.toNat := by
  rw [BitVec.toNat_append, ← Nat.shiftLeft_add_eq_or_of_lt b.isLt, Nat.shiftLeft_eq]
  omega

/-- `be_2` is the number its two bytes spell. -/
theorem be2_toNat (fb : FrameBuf) (off : Nat) (h : off + 1 < fbDepth) :
    (be2 fb off h).toNat = beNat [fb[off], fb[off + 1]] := by
  rw [be2, append_byte_toNat]
  simp [beNat]

/-- `be_8` is the number its eight bytes spell. -/
theorem be8_toNat (fb : FrameBuf) (off : Nat) (h : off + 7 < fbDepth) :
    (be8 fb off h).toNat = beNat [fb[off], fb[off + 1], fb[off + 2], fb[off + 3], fb[off + 4], fb[off + 5], fb[off + 6],
      fb[off + 7]] := by
  simp only [be8, append_byte_toNat, beNat, List.foldl]
  omega

/-- The bytes of `be_2` are the frame's. -/
theorem bytes2_be2 (fb : FrameBuf) (off : Nat) (h : off + 1 < fbDepth) :
    bytes2 (be2 fb off h) = [fb[off], fb[off + 1]] := by
  have hb := be2_toNat fb off h
  simp only [beNat, List.foldl] at hb
  have := fb[off].isLt
  have := fb[off + 1].isLt
  simp only [bytes2, List.cons.injEq, and_true]
  constructor <;>
    (apply BitVec.eq_of_toNat_eq
     rw [BitVec.extractLsb'_toNat, hb, Nat.shiftRight_eq_div_pow]
     omega)

/-- The bytes of `be_8` are the frame's. -/
theorem bytes8_be8 (fb : FrameBuf) (off : Nat) (h : off + 7 < fbDepth) :
    bytes8 (be8 fb off h) = [fb[off], fb[off + 1], fb[off + 2], fb[off + 3], fb[off + 4], fb[off + 5], fb[off + 6],
      fb[off + 7]] := by
  have hb := be8_toNat fb off h
  simp only [beNat, List.foldl] at hb
  have := fb[off].isLt
  have := fb[off + 1].isLt
  have := fb[off + 2].isLt
  have := fb[off + 3].isLt
  have := fb[off + 4].isLt
  have := fb[off + 5].isLt
  have := fb[off + 6].isLt
  have := fb[off + 7].isLt
  simp only [bytes8, List.cons.injEq, and_true]
  refine ⟨?_, ?_, ?_, ?_, ?_, ?_, ?_, ?_⟩ <;>
    (apply BitVec.eq_of_toNat_eq
     rw [BitVec.extractLsb'_toNat, hb, Nat.shiftRight_eq_div_pow]
     omega)

theorem bytes2_injective {x y : Half} (h : bytes2 x = bytes2 y) : x = y := by
  simp only [bytes2, List.cons.injEq, and_true] at h
  have split : ∀ z : Half, z.toNat = (z.extractLsb' 8 8 : Byte).toNat * 256 + (z.extractLsb' 0 8 : Byte).toNat := by
    intro z
    have := z.isLt
    simp [BitVec.extractLsb'_toNat, Nat.shiftRight_eq_div_pow]
    omega
  apply BitVec.eq_of_toNat_eq
  rw [split x, split y, h.1, h.2]

theorem slice_zero (i : Nat) (f : List Byte) : slice i 0 f = [] := by simp [slice]

/-- A slice of a frame starts with its first byte. -/
theorem slice_succ (fb : FrameBuf) (len i n : Nat) (hlen : len ≤ fbDepth) (h : i < len) :
    slice i (n + 1) (frameBytes fb len) =
      fb[i]'(Nat.lt_of_lt_of_le h hlen) :: slice (i + 1) n (frameBytes fb len) := by
  have hi : i < fbDepth := Nat.lt_of_lt_of_le h hlen
  have h1 : i < (frameBytes fb len).length := by rw [frameBytes_length hlen]; exact h
  unfold slice
  rw [List.drop_eq_getElem_cons h1, List.take_succ_cons]
  congr 1
  have := frameBytes_getElem? fb len i hi h
  rw [List.getElem?_eq_getElem h1] at this
  exact Option.some.inj this

/-- The last two bytes of a frame are the slice that the checksum field is. -/
theorem drop_eq_slice (fb : FrameBuf) (len : Nat) (hlen : len ≤ fbDepth) (h : 2 ≤ len) :
    (frameBytes fb len).drop (len - 2) = slice (len - 2) 2 (frameBytes fb len) := by
  unfold slice
  rw [List.take_of_length_le]
  simp [frameBytes_length hlen]
  omega

theorem take_frameBytes (fb : FrameBuf) (len n : Nat) (h : n ≤ len) : (frameBytes fb len).take n = frameBytes fb n := by
  simp [frameBytes, List.take_take, Nat.min_eq_left h]

theorem toList_eq_frameBytes (fb : FrameBuf) : fb.toList = frameBytes fb fbDepth := by
  rw [frameBytes, List.take_of_length_le]
  simp

theorem hi_append_lo (x : DWord) : hiHalf x ++ loHalf x = x := by
  have := x.isLt
  apply BitVec.eq_of_toNat_eq
  rw [BitVec.toNat_append, ← Nat.shiftLeft_add_eq_or_of_lt (BitVec.isLt _)]
  simp [hiHalf, loHalf, BitVec.extractLsb'_toNat, Nat.shiftRight_eq_div_pow, Nat.shiftLeft_eq]
  omega

theorem byteOperand_eq (w : Word) : byteOperand w = w.setWidth 8 := by
  unfold byteOperand
  ext i
  simp

end Sys2Proof.Machine
end

