-- ==== Sys2Proof/Laws/PerInstr.lean ====
section
/-! SUPPORT. AccessShape, per instruction: the access that a well-formed operation is encoded as passes the admission
check of 20_memory.md R53, but for the row of the accesses that fail it. -/

namespace Sys2Proof.Laws

/-- The row of the accesses that the admission check rejects. -/
def rejectedRow : Instr → Bool
  | .nonWordOrMisaligned _ => true
  | _ => false

/-- A well-formed operation's access is admitted exactly when it is not of the rejected row. -/
def AccessShape.Statement (i : Instr) : Prop :=
  i.wellFormed = true → (encode i).access.admitted = !rejectedRow i

theorem AccessShape.crcInit (p : ProfileSel) : AccessShape.Statement (.crcInit p) :=
  fun _ => admitted_word _ (by decide)

theorem AccessShape.frameClear : AccessShape.Statement .frameClear :=
  fun _ => admitted_word _ (by decide)

theorem AccessShape.validate (v : Variant) : AccessShape.Statement (.validate v) :=
  fun _ => admitted_word _ (by decide)

theorem AccessShape.clearErr : AccessShape.Statement .clearErr :=
  fun _ => admitted_word _ (by decide)

theorem AccessShape.illegalCommandWord (w : Word) : AccessShape.Statement (.illegalCommandWord w) :=
  fun _ => admitted_word _ (by decide)

theorem AccessShape.wrCmd (w : Word) : AccessShape.Statement (.wrCmd w) :=
  fun _ => admitted_word _ (by decide)

theorem AccessShape.rdCmd : AccessShape.Statement .rdCmd :=
  fun _ => admitted_word _ (by decide)

theorem AccessShape.wrStatusIgnored (w : Word) : AccessShape.Statement (.wrStatusIgnored w) :=
  fun _ => admitted_word _ (by decide)

theorem AccessShape.rdStatus : AccessShape.Statement .rdStatus :=
  fun _ => admitted_word _ (by decide)

theorem AccessShape.wrCrcData (w : Word) : AccessShape.Statement (.wrCrcData w) :=
  fun _ => admitted_word _ (by decide)

theorem AccessShape.rdCrcData : AccessShape.Statement .rdCrcData :=
  fun _ => admitted_word _ (by decide)

theorem AccessShape.wrCrcValueIgnored (w : Word) : AccessShape.Statement (.wrCrcValueIgnored w) :=
  fun _ => admitted_word _ (by decide)

theorem AccessShape.rdCrcValue : AccessShape.Statement .rdCrcValue :=
  fun _ => admitted_word _ (by decide)

theorem AccessShape.wrFrameData (w : Word) : AccessShape.Statement (.wrFrameData w) :=
  fun _ => admitted_word _ (by decide)

theorem AccessShape.rdFrameData : AccessShape.Statement .rdFrameData :=
  fun _ => admitted_word _ (by decide)

theorem AccessShape.wrFrameCountIgnored (w : Word) : AccessShape.Statement (.wrFrameCountIgnored w) :=
  fun _ => admitted_word _ (by decide)

theorem AccessShape.rdFrameCount : AccessShape.Statement .rdFrameCount :=
  fun _ => admitted_word _ (by decide)

theorem AccessShape.rdKeyHi : AccessShape.Statement .rdKeyHi :=
  fun _ => admitted_word _ (by decide)

theorem AccessShape.wrKeyHiIgnored (w : Word) : AccessShape.Statement (.wrKeyHiIgnored w) :=
  fun _ => admitted_word _ (by decide)

theorem AccessShape.rdKeyLo : AccessShape.Statement .rdKeyLo :=
  fun _ => admitted_word _ (by decide)

theorem AccessShape.wrKeyLoIgnored (w : Word) : AccessShape.Statement (.wrKeyLoIgnored w) :=
  fun _ => admitted_word _ (by decide)

theorem AccessShape.rdOperation : AccessShape.Statement .rdOperation :=
  fun _ => admitted_word _ (by decide)

theorem AccessShape.wrOperationIgnored (w : Word) : AccessShape.Statement (.wrOperationIgnored w) :=
  fun _ => admitted_word _ (by decide)

theorem AccessShape.rdAsset : AccessShape.Statement .rdAsset :=
  fun _ => admitted_word _ (by decide)

theorem AccessShape.wrAssetIgnored (w : Word) : AccessShape.Statement (.wrAssetIgnored w) :=
  fun _ => admitted_word _ (by decide)

theorem AccessShape.rdPriceHi : AccessShape.Statement .rdPriceHi :=
  fun _ => admitted_word _ (by decide)

theorem AccessShape.wrPriceHiIgnored (w : Word) : AccessShape.Statement (.wrPriceHiIgnored w) :=
  fun _ => admitted_word _ (by decide)

theorem AccessShape.rdPriceLo : AccessShape.Statement .rdPriceLo :=
  fun _ => admitted_word _ (by decide)

theorem AccessShape.wrPriceLoIgnored (w : Word) : AccessShape.Statement (.wrPriceLoIgnored w) :=
  fun _ => admitted_word _ (by decide)

theorem AccessShape.rdVolumeHi : AccessShape.Statement .rdVolumeHi :=
  fun _ => admitted_word _ (by decide)

theorem AccessShape.wrVolumeHiIgnored (w : Word) : AccessShape.Statement (.wrVolumeHiIgnored w) :=
  fun _ => admitted_word _ (by decide)

theorem AccessShape.rdVolumeLo : AccessShape.Statement .rdVolumeLo :=
  fun _ => admitted_word _ (by decide)

theorem AccessShape.wrVolumeLoIgnored (w : Word) : AccessShape.Statement (.wrVolumeLoIgnored w) :=
  fun _ => admitted_word _ (by decide)

theorem AccessShape.rdExpireHi : AccessShape.Statement .rdExpireHi :=
  fun _ => admitted_word _ (by decide)

theorem AccessShape.wrExpireHiIgnored (w : Word) : AccessShape.Statement (.wrExpireHiIgnored w) :=
  fun _ => admitted_word _ (by decide)

theorem AccessShape.rdExpireLo : AccessShape.Statement .rdExpireLo :=
  fun _ => admitted_word _ (by decide)

theorem AccessShape.wrExpireLoIgnored (w : Word) : AccessShape.Statement (.wrExpireLoIgnored w) :=
  fun _ => admitted_word _ (by decide)

theorem AccessShape.rdChecksum : AccessShape.Statement .rdChecksum :=
  fun _ => admitted_word _ (by decide)

theorem AccessShape.wrChecksumIgnored (w : Word) : AccessShape.Statement (.wrChecksumIgnored w) :=
  fun _ => admitted_word _ (by decide)

theorem AccessShape.reservedOffset18 (d : Dir) (k : BitVec 1) : AccessShape.Statement (.reservedOffset18 d k) :=
  fun _ => admitted_word _
    ((by decide : ∀ k : BitVec 1, ((0b0011 : BitVec 4) ++ k ++ (0 : BitVec 2) : Offset).extractLsb' 0 2 = 0) k)

theorem AccessShape.reservedOffset4C (d : Dir) : AccessShape.Statement (.reservedOffset4C d) :=
  fun _ => admitted_word _ (by decide)

theorem AccessShape.reservedOffset50 (d : Dir) (k : BitVec 2) : AccessShape.Statement (.reservedOffset50 d k) :=
  fun _ => admitted_word _
    ((by decide : ∀ k : BitVec 2, ((0b101 : BitVec 3) ++ k ++ (0 : BitVec 2) : Offset).extractLsb' 0 2 = 0) k)

theorem AccessShape.reservedOffset60 (d : Dir) (k : BitVec 3) : AccessShape.Statement (.reservedOffset60 d k) :=
  fun _ => admitted_word _
    ((by decide : ∀ k : BitVec 3, ((0b11 : BitVec 2) ++ k ++ (0 : BitVec 2) : Offset).extractLsb' 0 2 = 0) k)

theorem AccessShape.nonWordOrMisaligned (a : Access) : AccessShape.Statement (.nonWordOrMisaligned a) := by
  intro h
  simpa [Instr.wellFormed, rejectedRow, encode, Operation.access] using h

end Sys2Proof.Laws
end

