-- ==== Sys2Proof/Laws/Run.lean ====
section
/-! SUPPORT. Runs of several steps: the first step taken apart, and two runs joined. -/

namespace Sys2Proof.Machine

open Host

theorem core_run_succ {M : Core} {n : Nat} {s t : M.State} (h : M.step s = .next t) : M.run (n + 1) s = M.run n t := by
  simp only [Core.run, h]

theorem core_run_add {M : Core} {m n : Nat} {s t : M.State} (h : M.run m s = .next t) :
    M.run (m + n) s = M.run n t := by
  induction m generalizing s with
  | zero => cases h; simp
  | succ m ih =>
    rw [Nat.succ_add]
    simp only [Core.run] at h ⊢
    split at h
    · exact ih h
    · cases h
    · cases h

/-- A run of one step more is the step and then the rest of the run. -/
theorem run_succ {n : Nat} {s t : State} (h : step s = .next t) :
    Sys2Proof.core.run (n + 1) s = Sys2Proof.core.run n t := core_run_succ (M := Sys2Proof.core) h

/-- Two runs, one after the other. -/
theorem run_add {m n : Nat} {s t : State} (h : Sys2Proof.core.run m s = .next t) :
    Sys2Proof.core.run (m + n) s = Sys2Proof.core.run n t := core_run_add (M := Sys2Proof.core) h

theorem run_zero (s : State) : Sys2Proof.core.run 0 s = .next s := rfl

end Sys2Proof.Machine
end

