-- ==== Sys2Proof/Tests/Slice0.lean ====
section
/-! SUPPORT. Tests: words written out from the spec's encodings, one-step checks against the values of
spec/95_test_vectors.md, and for every statement with hypotheses a state and operands that meet them. -/

namespace Sys2Proof.Tests

open Sys2Proof.Machine

/-! ### Helpers -/

/-- The next state of an outcome. -/
def after (o : Host.Outcome State Fault Refusal) : Option State :=
  match o with
  | .next t => some t
  | _ => none

/-- The response of the step that performs `i` at `s`. -/
def responseOf (i : Instr) (s : State) : Option Response := (after (exec i s)).map (·.response)

/-- The response of the access `o` at `s`. -/
def answerTo (o : Operation) (s : State) : Option Response := responseOf (decode o) s

/-- STATUS after the operation `o` at `s`. -/
def statusAfter (o : Operation) (s : State) : Option Word := (after (exec (decode o) s)).map statusWord

/-- The state after reset with the bytes of a frame pushed. -/
def framed (cfg : Config) (bytes : List Byte) : State :=
  { State.afterReset cfg (Vector.ofFn fun i => bytes.getD i.val 0) with fcnt := BitVec.ofNat 16 bytes.length }

/-- RESULT after VALIDATE of a frame under the default parameters. -/
def verdict (v : Variant) (bytes : List Byte) : Option ResultCode :=
  (after (exec (.validate v) (framed .default bytes))).map (·.result)

/-- The state after a completed VALIDATE, or the given state if there is none. -/
def validated (v : Variant) (s : State) : State := (after (exec (.validate v) s)).getD s

/-- A state with one event pending. -/
def facing (e : HostEvent) (s : State) : State := { s with pending := [e] }

/-- A state with several events pending. -/
def facingAll (evs : List HostEvent) (s : State) : State := { s with pending := evs }

/-- A state with its elements away from their reset values (the result registers apart). -/
def busy : State :=
  { State.afterReset { Config.default with rejectNan := true } (Vector.replicate 37 0xAA) with
    crcAcc := 0x1234, crcSel := .crcC, fcnt := 3, result := .checksumMismatch, rvar := .c, cmdErr := true,
    pending := [.reset, .op (encode .rdStatus)], response := .busErr }

/-! ### Frames of spec/95_test_vectors.md section 3 -/

/-- V-B1. -/
def vB1 : List Byte :=
  [0x41, 0x42, 0x43, 0x44, 0x45, 0x46, 0x47, 0x48, 0x01, 0x02, 0x40, 0x93, 0x4A, 0x3D,
   0x70, 0xA3, 0xD7, 0x0A, 0x40, 0xBE, 0xD2, 0x1E, 0xB8, 0x51, 0xEB, 0x85, 0x4A, 0x83]

/-- V-B2. -/
def vB2 : List Byte :=
  [0x41, 0x42, 0x43, 0x44, 0x45, 0x46, 0x47, 0x48, 0xFF, 0x02, 0x40, 0x93, 0x4A, 0x3D,
   0x70, 0xA3, 0xD7, 0x0A, 0x40, 0xBE, 0xD2, 0x1E, 0xB8, 0x51, 0xEB, 0x85, 0xA0, 0xA8]

/-- V-B3. -/
def vB3 : List Byte :=
  [0x41, 0x42, 0x43, 0x44, 0x45, 0x46, 0x47, 0x48, 0xFF, 0x02, 0x40, 0x93, 0x4A, 0x3D,
   0x70, 0xA3, 0xD7, 0x0A, 0x40, 0xBE, 0xD2, 0x1E, 0xB8, 0x51, 0xEB, 0x85, 0x4A, 0x83]

/-- V-B6. -/
def vB6 : List Byte :=
  [0x41, 0x42, 0x43, 0x44, 0x45, 0x46, 0x47, 0x48, 0x01, 0x02, 0xBF, 0xF0, 0x00, 0x00,
   0x00, 0x00, 0x00, 0x00, 0x40, 0xBE, 0xD2, 0x1E, 0xB8, 0x51, 0xEB, 0x85, 0xEE, 0xF8]

/-- V-B7. -/
def vB7 : List Byte :=
  [0x41, 0x42, 0x43, 0x44, 0x45, 0x46, 0x47, 0x48, 0xFF, 0x02, 0xBF, 0xF0, 0x00, 0x00,
   0x00, 0x00, 0x00, 0x00, 0x40, 0xBE, 0xD2, 0x1E, 0xB8, 0x51, 0xEB, 0x85, 0x04, 0xD3]

/-- V-A1. -/
def vA1 : List Byte :=
  [0x41, 0x42, 0x43, 0x44, 0x45, 0x46, 0x47, 0x48, 0x01, 0x02, 0x40, 0x93, 0x4A, 0x3D,
   0x70, 0xA3, 0xD7, 0x0A, 0x40, 0xBE, 0xD2, 0x1E, 0xB8, 0x51, 0xEB, 0x85]

/-- V-A3. -/
def vA3 : List Byte := List.replicate 26 0x00

/-- V-C1. -/
def vC1 : List Byte :=
  [0x41, 0x42, 0x43, 0x44, 0x45, 0x46, 0x47, 0x48, 0x01, 0x01, 0x02, 0x40, 0x93, 0x4A,
   0x3D, 0x70, 0xA3, 0xD7, 0x0A, 0x40, 0xBE, 0xD2, 0x1E, 0xB8, 0x51, 0xEB, 0x85, 0x00,
   0x00, 0x00, 0x00, 0x38, 0x6D, 0x43, 0x80, 0x0F, 0x57]

/-- V-C2. -/
def vC2 : List Byte :=
  [0x41, 0x42, 0x43, 0x44, 0x45, 0x46, 0x47, 0x48, 0x01, 0x01, 0x02, 0x40, 0x93, 0x4A,
   0x3D, 0x70, 0xA3, 0xD7, 0x0A, 0x40, 0xBE, 0xD2, 0x1E, 0xB8, 0x51, 0xEB, 0x85, 0x00,
   0x00, 0x00, 0x00, 0x38, 0x6D, 0x43, 0x7F, 0x11, 0xA7]

/-- V-C4. -/
def vC4 : List Byte :=
  [0x41, 0x42, 0x43, 0x44, 0x45, 0x46, 0x47, 0x48, 0xC8, 0x01, 0x02, 0x40, 0x93, 0x4A,
   0x3D, 0x70, 0xA3, 0xD7, 0x0A, 0x40, 0xBE, 0xD2, 0x1E, 0xB8, 0x51, 0xEB, 0x85, 0x00,
   0x00, 0x00, 0x00, 0x00, 0x00, 0x00, 0x00, 0x13, 0x69]

/-- V-F8: V-B1 with a NaN as Price. -/
def vF8 : List Byte :=
  [0x41, 0x42, 0x43, 0x44, 0x45, 0x46, 0x47, 0x48, 0x01, 0x02, 0x7F, 0xF8, 0x00, 0x00,
   0x00, 0x00, 0x00, 0x00, 0x40, 0xBE, 0xD2, 0x1E, 0xB8, 0x51, 0xEB, 0x85, 0x4D, 0xE4]

/-- The fields of V-B1, from the spec's table of result registers. -/
def fieldsB1 : Fields :=
  { key := 0x4142434445464748, op := 0x01, asset := 0x0002, price := 0x40934A3D70A3D70A, volume := 0x40BED21EB851EB85,
    expire := 0, csum := 0x4A83 }

/-- The fields of V-C1, from the spec's table of result registers. -/
def fieldsC1 : Fields :=
  { key := 0x4142434445464748, op := 0x01, asset := 0x0102, price := 0x40934A3D70A3D70A, volume := 0x40BED21EB851EB85,
    expire := 0x00000000386D4380, csum := 0x0F57 }

/-- Fields of a packet of variant A at the edges of the checks: a NaN as Price, -0.0 as Volume, Operation 127. -/
def fieldsNan : Fields :=
  { key := 0xFFFFFFFFFFFFFFFF, op := 127, asset := 0xFF, price := 0x7FF8000000000001, volume := 0x8000000000000000,
    expire := 0, csum := 0 }

/-! ### Well-formedness: an ill-formed term for each check -/

theorem test_wellFormed_refuses_legal_word : (Instr.illegalCommandWord 0x00000101).wellFormed = false := by decide

theorem test_wellFormed_refuses_admitted_access :
    (Instr.nonWordOrMisaligned { dir := .rd, off := 0x04, size := .word }).wellFormed = false := by decide

/-! ### Decoding: every row of the opcode table (30_encoding.md R71, R74) -/

theorem test_decode_commands :
    ∀ p ∈ [(0b00000000000000000000000100000001, Instr.crcInit .crcB),
      (0b00000000000000000000001000000001, .crcInit .crcC), (0b00000000000000000000000000000010, .frameClear),
      (0b00000000000000000000000000000011, .validate .a), (0b00000000000000000000000100000011, .validate .b),
      (0b00000000000000000000001000000011, .validate .c), (0b00000000000000000000000000000100, .clearErr)],
      decodeTableWord 32 p.1 = some p.2 := by decide

/-- Illegal words: each opcode with each wrong VAR, opcodes 0 and 5, and bits 10 and 31 set. -/
theorem test_decode_illegal_words :
    ∀ w ∈ [0x00000000, 0x00000001, 0x00000301, 0x00000102, 0x00000202, 0x00000302, 0x00000303, 0x00000104, 0x00000204,
      0x00000304, 0x00000005, 0x00000401, 0x80000003, 0xFFFFFFFF],
      decodeTableWord 32 w = some (.illegalCommandWord (BitVec.ofNat 32 w)) := by decide

theorem test_decode_control_registers :
    ∀ p ∈ [(0b10000000, Instr.wrCmd 0), (0b00000000, .rdCmd), (0b10000100, .wrStatusIgnored 0),
      (0b00000100, .rdStatus), (0b10001000, .wrCrcData 0), (0b00001000, .rdCrcData),
      (0b10001100, .wrCrcValueIgnored 0), (0b00001100, .rdCrcValue), (0b10010000, .wrFrameData 0),
      (0b00010000, .rdFrameData), (0b10010100, .wrFrameCountIgnored 0), (0b00010100, .rdFrameCount)],
      decodeTableWord 8 p.1 = some p.2 := by decide

theorem test_decode_result_reads :
    ∀ p ∈ [(0b00100000, Instr.rdKeyHi), (0b00100100, .rdKeyLo), (0b00101000, .rdOperation), (0b00101100, .rdAsset),
      (0b00110000, .rdPriceHi), (0b00110100, .rdPriceLo), (0b00111000, .rdVolumeHi), (0b00111100, .rdVolumeLo),
      (0b01000000, .rdExpireHi), (0b01000100, .rdExpireLo), (0b01001000, .rdChecksum)],
      decodeTableWord 8 p.1 = some p.2 := by decide

theorem test_decode_result_writes :
    ∀ p ∈ [(0b10100000, Instr.wrKeyHiIgnored 0), (0b10100100, .wrKeyLoIgnored 0), (0b10101000, .wrOperationIgnored 0),
      (0b10101100, .wrAssetIgnored 0), (0b10110000, .wrPriceHiIgnored 0), (0b10110100, .wrPriceLoIgnored 0),
      (0b10111000, .wrVolumeHiIgnored 0), (0b10111100, .wrVolumeLoIgnored 0), (0b11000000, .wrExpireHiIgnored 0),
      (0b11000100, .wrExpireLoIgnored 0), (0b11001000, .wrChecksumIgnored 0)],
      decodeTableWord 8 p.1 = some p.2 := by decide

theorem test_decode_reserved_offsets :
    ∀ p ∈ [(0b00011000, Instr.reservedOffset18 .rd 0), (0b10011100, .reservedOffset18 (.wr 0) 1),
      (0b01001100, .reservedOffset4C .rd), (0b11001100, .reservedOffset4C (.wr 0)),
      (0b01010000, .reservedOffset50 .rd 0), (0b11011100, .reservedOffset50 (.wr 0) 3),
      (0b01100000, .reservedOffset60 .rd 0), (0b11111100, .reservedOffset60 (.wr 0) 7)],
      decodeTableWord 8 p.1 = some p.2 := by decide

/-- A misaligned key, and the sizes 1, 2 and 8. -/
theorem test_decode_rejected_accesses :
    decodeTableWord 8 0b00000001 = some (.nonWordOrMisaligned { dir := .rd, off := 0x01, size := .word }) ∧
    ∀ size ∈ [AccessSize.byte, .half, .double],
      decode (.bus { dir := .wr 3, off := 0x00, size := size }) =
        .nonWordOrMisaligned { dir := .wr 3, off := 0x00, size := size } := by decide

theorem test_decode_other_widths : decodeTableWord 16 0 = none ∧ decodeTableWord 8 256 = none := by decide

/-! ### CRC: the catalog's check values (spec/95_test_vectors.md section 2) -/

/-- "123456789". -/
def digits : List Byte := [0x31, 0x32, 0x33, 0x34, 0x35, 0x36, 0x37, 0x38, 0x39]

theorem test_crc_check_values :
    crc16 .ccittFalse digits = 0x29B1 ∧
    crc16 { poly := 0x8005, init := 0x0000, refin := true, refout := true, xorout := 0x0000 } digits = 0xBB3D ∧
    crc16 { poly := 0x1021, init := 0x0000, refin := false, refout := false, xorout := 0x0000 } digits = 0x31C3 ∧
    crc16 { poly := 0x1021, init := 0x0000, refin := true, refout := true, xorout := 0x0000 } digits = 0x2189 ∧
    crc16 { poly := 0x8005, init := 0xFFFF, refin := true, refout := true, xorout := 0x0000 } digits = 0x4B37 ∧
    crc16 { poly := 0x1021, init := 0xFFFF, refin := true, refout := true, xorout := 0xFFFF } digits = 0x906E := by
  decide +kernel

/-- K8: the residue of V-B1 with its checksum. -/
theorem test_crc_residue : crc16 .ccittFalse vB1 = 0 := by decide +kernel

/-! ### One step of each instruction -/

/-- E8. -/
theorem test_crc_init_c : statusAfter (.cmd 0x00000201) State.reset = some 0x0000100F := by decide +kernel

/-- K11: the partial value is discarded. -/
theorem test_crc_init_b :
    (after (exec (.crcInit .crcB) busy)).map (fun t => (t.crcAcc, t.crcSel)) = some (0xFFFF, .crcB) := by decide

/-- E18: FCNT is 0, and the bytes stay (R130). -/
theorem test_frame_clear :
    (after (exec .frameClear busy)).map (fun t => (t.fcnt, t.fb == busy.fb)) = some (0, true) := by decide

/-- V-A1, V-A3, V-B1, V-B2, V-B3, V-B6, V-B7, V-F8, V-C1, V-C2 and V-C4. -/
theorem test_validate_verdicts :
    verdict .a vA1 = some .ok ∧ verdict .a vA3 = some .ok ∧ verdict .b vB1 = some .ok ∧
    verdict .b vB2 = some .invalidOperation ∧ verdict .b vB3 = some .checksumMismatch ∧
    verdict .b vB6 = some .negativeAmount ∧ verdict .b vB7 = some .negativeAmount ∧ verdict .b vF8 = some .ok ∧
    verdict .c vC1 = some .ok ∧ verdict .c vC2 = some .invalidExpiration ∧ verdict .c vC4 = some .invalidOperation ∧
    verdict .c vB1 = some .invalidLength ∧ verdict .a vB1 = some .invalidLength ∧
    verdict .b vC1 = some .invalidLength := by decide +kernel

/-- V-F8 under REJECT_NAN = 1. -/
theorem test_validate_rejects_nan :
    (after (exec (.validate .b) (framed { Config.default with rejectNan := true } vF8))).map (·.result) =
      some .negativeAmount := by decide +kernel

/-- E3. -/
theorem test_clear_err : statusAfter (.cmd 0x00000004) { State.reset with cmdErr := true } = some 0x0000000F := by
  decide +kernel

/-- E4, E5, E6 and E7: the flag is set and the frame stays. -/
theorem test_illegal_command_words :
    statusAfter (.cmd 0x00000303) State.reset = some 0x0000010F ∧
    statusAfter (.cmd 0x00000401) State.reset = some 0x0000010F ∧
    statusAfter (.cmd 0x00000005) State.reset = some 0x0000010F ∧
    (after (exec (.illegalCommandWord 0x00000102) { State.reset with fcnt := 3 })).map (·.fcnt) = some 3 := by
  decide +kernel

/-- E2: the write itself ends OKAY. -/
theorem test_wr_cmd_illegal :
    answerTo (writeAt 0x00 0) State.reset = some .okay ∧
    statusAfter (writeAt 0x00 0) State.reset = some 0x0000010F := by
  decide +kernel

/-- The last lines of P2: VALIDATE B by its command word. -/
theorem test_wr_cmd_validate_b : statusAfter (writeAt 0x00 0x00000103) (framed .default vB1) = some 0x00000010 := by
  decide +kernel

/-- E10. -/
theorem test_write_only_reads :
    ∀ i ∈ [Instr.rdCmd, .rdCrcData, .rdFrameData], responseOf i busy = some (.okayData 0) := by decide

/-- E1, and E24's STATUS. -/
theorem test_rd_status :
    responseOf .rdStatus State.reset = some (.okayData 0x0000000F) ∧
    responseOf .rdStatus (validated .b { framed .default vB1 with crcSel := .crcC }) = some (.okayData 0x00001010) := by
  decide +kernel

/-- K2 and K9: bits 31:8 of the fed word are ignored. -/
theorem test_wr_crc_data :
    (after (exec (.wrCrcData 0x00000000) State.reset)).map (·.crcAcc) = some 0xE1F0 ∧
    (after (exec (.wrCrcData 0x00000100) State.reset)).map (·.crcAcc) = some 0xE1F0 := by decide +kernel

/-- P1's last feed: 0x29B1 with 00 gives 0x044B. -/
theorem test_wr_crc_data_continues :
    (after (exec (.wrCrcData 0) { State.reset with crcAcc := 0x29B1 })).map (·.crcAcc) = some 0x044B := by
  decide +kernel

/-- K1, and X-25's CRC of the empty string, read through its final exclusive-or. -/
theorem test_rd_crc_value :
    responseOf .rdCrcValue State.reset = some (.okayData 0x0000FFFF) ∧
    responseOf .rdCrcValue
      { State.reset with crcSel := .crcC, crcAcc := 0xFFFF, cfg := { Config.default with crcC :=
        { poly := 0x1021, init := 0xFFFF, refin := true, refout := true, xorout := 0xFFFF } } } =
      some (.okayData 0) := by decide +kernel

/-- FCNT and the last byte of the frame buffer after a push of 0xBB at a count. -/
def pushAt (fcnt : Half) : Option (Half × Byte) :=
  (after (exec (.wrFrameData 0x12BB) { State.reset with fcnt := fcnt })).map fun t => (t.fcnt, t.fb[36])

/-- The 37th byte is stored, the 38th counted only (E19), and the counter saturates (E20). -/
theorem test_wr_frame_data_edges :
    pushAt 36 = some (37, 0xBB) ∧ pushAt 37 = some (38, 0) ∧ pushAt 0xFFFF = some (0xFFFF, 0) := by decide +kernel

/-- E19's count. -/
theorem test_rd_frame_count :
    responseOf .rdFrameCount { State.reset with fcnt := 38 } = some (.okayData 0x00000026) := by decide

/-- The result registers after V-C1. -/
theorem test_result_reads :
    ∀ p ∈ [(Instr.rdKeyHi, (0x41424344 : Word)), (.rdKeyLo, 0x45464748), (.rdOperation, 0x00000001),
      (.rdAsset, 0x00000102), (.rdPriceHi, 0x40934A3D), (.rdPriceLo, 0x70A3D70A), (.rdVolumeHi, 0x40BED21E),
      (.rdVolumeLo, 0xB851EB85), (.rdExpireHi, 0x00000000), (.rdExpireLo, 0x386D4380), (.rdChecksum, 0x00000F57)],
      responseOf p.1 (validated .c (framed .default vC1)) = some (.okayData p.2) := by decide +kernel

/-- E11, E12: a write to a read-only register ends OKAY and leaves the registers. -/
theorem test_ignored_writes :
    ∀ off ∈ ([0x04, 0x0C, 0x14, 0x20, 0x24, 0x28, 0x2C, 0x30, 0x34, 0x38, 0x3C, 0x40, 0x44, 0x48] : List Offset),
      after (exec (decode (writeAt off 0xFFFFFFFF)) busy) = some { busy with response := .okay } := by decide +kernel

/-- E13 to E17: BUSERR, and no state changes. -/
theorem test_bus_errors :
    ∀ a ∈ [({ dir := .rd, off := 0x04, size := .byte } : Access), { dir := .wr 0, off := 0x02, size := .word },
      { dir := .rd, off := 0x18, size := .word }, { dir := .wr 0, off := 0x7C, size := .word },
      { dir := .wr 3, off := 0x00, size := .half }],
      after (exec (decode (.bus a)) State.reset) = some { State.reset with response := .busErr } := by decide +kernel

/-- The word placed where step fetches is the one that runs. -/
theorem test_withFetchWord :
    (after (step (State.reset.withFetchWord 32 0x00000201))).map (·.crcSel) = some .crcC ∧
    (after (step (State.reset.withFetchWord 8 0x04))).map (·.response) = some (.okayData 0x0000000F) := by
  decide +kernel

/-! ### Witnesses: states and operands that meet the hypotheses of the statements -/

theorem test_witness_ResetLeavesTheSpecValues : busy.pending = .reset :: [.op (encode .rdStatus)] := by decide

/-- A consistent state that holds a packet, with a VALIDATE and with a reset to come. -/
theorem test_witness_StepKeepsResultRegistersConsistent :
    ∀ e ∈ [HostEvent.op (encode (.validate .c)), .reset],
      let s := facing e { framed .default vB1 with result := .ok, rvar := .b, res := fieldsB1 }
      s.Consistent ∧ ∃ t, step s = .next t := by
  have hv : fieldsB1.Valid .default .b :=
    ⟨by decide, by decide, by decide, fun _ => (by decide), fun _ => (by decide), fun h => (by cases h)⟩
  have hc : fieldsB1.csum = frameChecksum .default .b fieldsB1 := by decide +kernel
  intro e he
  refine ⟨⟨fun h => absurd rfl h, fun h => (by cases h), fun _ => hv, fun _ => hc⟩, ?_⟩
  rcases List.mem_cons.1 he with rfl | he
  · exact ⟨_, rfl⟩
  · obtain rfl := List.mem_singleton.1 he
    exact ⟨_, rfl⟩

/-- The state after reset meets the invariant as well, with no packet. -/
theorem test_witness_StepKeepsResultRegistersConsistent_reset :
    State.reset.Consistent ∧ ∃ t, step State.reset = .next t :=
  ⟨⟨fun _ => rfl, fun _ => rfl, fun h => (by cases h), fun h => (by cases h)⟩, _, rfl⟩

theorem test_witness_StepRunsTheDecodedOperation :
    (facing (.op (.cmd 0x00000303)) State.reset).pending = .op (.cmd 0x00000303) :: [] ∧
    decodeTableWord 8 0x90 = some (.wrFrameData 0) ∧ decodeTableWord 32 0x303 = some (.illegalCommandWord 0x303) := by
  decide

theorem test_witness_NoEventNoChange : State.reset.pending = [] := by decide

/-- With nothing pending, with one event and with a queue. -/
theorem test_witness_EventsAreTakenInOrder :
    ∀ s ∈ [State.reset, facing (.op (encode .rdKeyHi)) State.reset, busy], (after (step s)).isSome = true := by
  decide +kernel

theorem test_witness_DecodeEncodeRoundTrip :
    ∀ i ∈ [Instr.illegalCommandWord 0x303, .nonWordOrMisaligned { dir := .wr 1, off := 0x00, size := .byte },
      .nonWordOrMisaligned { dir := .rd, off := 0x7F, size := .word }, .reservedOffset60 (.wr 5) 7, .crcInit .crcC,
      .wrCmd 0x303],
      i.wellFormed = true := by decide

theorem test_witness_EveryAlignedKeySelectsOneRow :
    ∀ k ∈ [(0x00 : BitVec 8), 0x1C, 0x4C, 0x7C, 0x80, 0xFC], k.extractLsb' 0 2 = 0 := by decide

theorem test_witness_CommandLegality :
    legal 0x00000000 = false ∧ legal 0x00000001 = false ∧ legal 0x00000303 = false ∧ legal 0x00000401 = false ∧
    legal 0x00000101 = true ∧ legal 0x00000201 = true ∧ legal 0x00000004 = true := by decide

/-- Offsets on both sides of every reserved range, and each way the admission check fails. -/
theorem test_witness_BusErrorExactlyWhen :
    (∀ off ∈ ([0x18, 0x1C, 0x4C, 0x50, 0x5C, 0x60, 0x7C, 0x02, 0x03, 0x7F] : List Offset),
      answerTo (readAt off) busy = some .busErr ∧ answerTo (writeAt off 0) busy = some .busErr) ∧
    (∀ size ∈ [AccessSize.byte, .half, .double],
      answerTo (.bus { dir := .rd, off := 0x04, size := size }) State.reset = some .busErr) ∧
    (∀ off ∈ ([0x00, 0x14, 0x20, 0x48] : List Offset),
      answerTo (readAt off) busy ≠ some .busErr ∧ answerTo (writeAt off 0) busy ≠ some .busErr) := by decide +kernel

/-- The first and the last address of the window and the one after it. BASE has no value in the model, so the address
before it is shown on the function that takes the base as an operand. -/
theorem test_witness_BusWindowIs128BytesAtBase :
    (Config.base ≤ Config.base ∧ Config.base < Config.base + 128) ∧
    (Config.base ≤ Config.base + 127 ∧ Config.base + 127 < Config.base + 128) ∧
    Config.base + 128 ≤ Config.base + 128 ∧
    windowOffset 256 256 = some 0 ∧ windowOffset 256 383 = some 0x7F ∧ windowOffset 256 384 = none ∧
    windowOffset 256 255 = none := by
  refine ⟨by omega, by omega, Nat.le_refl _, by decide, by decide, by decide, by decide⟩

theorem test_witness_StatusReadsItsFields :
    let s := { State.reset with result := .ok, rvar := .c }
    s.result = .ok ∧ s.rvar = .c ∧ s.cmdErr = false ∧ s.crcSel = .crcB := by decide

theorem test_witness_WideFieldsSplitBigEndian :
    ∀ p ∈ [(Variant.a, vA1), (.b, vB1), (.c, vC1)],
      validateCode .default p.1 (framed .default p.2).fcnt (framed .default p.2).fb = .ok := by decide +kernel

/-- For CrcValueReadsTheFinalisedCrc and FeedStepsTheAccumulator. -/
theorem test_witness_crc_profiles :
    State.reset.crcSel = .crcB ∧ busy.crcSel = .crcC ∧ Profile.ccittFalse.refout = false ∧
    Profile.ccittFalse.xorout = 0 := by decide

/-- Feeds with everything else of R106 between them, and no event at all; CRC.INIT as a command and as a bus write, and
reset. -/
theorem test_witness_StreamedCrcEqualsTheFunction :
    ∀ evs ∈ [[], [HostEvent.op (encode (.wrCrcData 0x31)), push 0x41, .op (.cmd 0x00000001),
        .op (encode (.validate .c)), .op (encode .frameClear), .op (encode .clearErr), .op (encode .rdCrcValue),
        .op (accessAt 0x18 .rd), .op (encode (.wrCrcData 0x32))]],
      ∀ q ∈ [(ProfileSel.crcC, HostEvent.op (.cmd 0x00000201)),
        (.crcB, .op (writeAt 0x00 0x00000101)), (.crcB, .reset)],
        (q.2.performs = some (.crcInit q.1) ∨ (q.2 = .reset ∧ q.1 = .crcB)) ∧
        (∀ e ∈ evs, e.startsCrc = false) ∧
        (facingAll (q.2 :: evs ++ .op (encode .rdCrcValue) :: [.reset]) busy).pending =
          q.2 :: evs ++ .op (encode .rdCrcValue) :: [.reset] := by decide +kernel

theorem test_witness_ResidueIsZero :
    Profile.ccittFalse.refin = false ∧ Profile.ccittFalse.refout = false ∧ Profile.ccittFalse.xorout = 0 := by decide

/-- A flip in the first byte, in the last body byte and in each checksum byte, for B and C. -/
theorem test_witness_SingleBitFlipsAreDetected :
    Config.default.PolysNonzero ∧
    ∀ p ∈ [(Variant.b, fieldsB1, 0, (7 : Fin 8)), (.b, fieldsB1, 25, 0), (.b, fieldsB1, 27, 0), (.c, fieldsC1, 0, 7),
        (.c, fieldsC1, 34, 3), (.c, fieldsC1, 36, 0)],
      let s := framed .default (flipBit p.2.2.1 p.2.2.2 (buildFrame .default p.1 p.2.1))
      p.1 ≠ .a ∧ p.2.2.1 < frameLen p.1 ∧ s.fcnt.toNat = frameLen p.1 ∧
      frameBytes s.fb (frameLen p.1) = flipBit p.2.2.1 p.2.2.2 (buildFrame s.cfg p.1 p.2.1) := by decide +kernel

/-- No byte, 37 and 38 bytes, after FRAME.CLEAR and after reset. -/
theorem test_witness_FrameHoldsThePushedBytes :
    ∀ e ∈ [HostEvent.op (encode .frameClear), .reset], ∀ n ∈ [0, 37, 38],
      (e = .op (encode .frameClear) ∨ e = .reset) ∧
      (facingAll (e :: (List.replicate n 0xBB).map push ++ [.reset]) busy).pending =
        e :: (List.replicate n 0xBB).map push ++ [.reset] := by decide +kernel

/-- One byte too few, one too many, none. -/
theorem test_witness_WrongLengthSequencesFail :
    ∀ p ∈ [(Variant.b, 27), (.b, 29), (.a, 0), (.a, 27), (.c, 36), (.c, 38)],
      (List.replicate p.2 (0 : Byte)).length ≠ frameLen p.1 ∧
      (facingAll (validateSequence p.1 (List.replicate p.2 0)) busy).pending =
        validateSequence p.1 (List.replicate p.2 0) := by decide +kernel

/-- V-B1's and V-C1's fields (Expire at its least value), and the edge values in A. -/
theorem test_witness_PacketRoundTrip :
    ∀ p ∈ [(Variant.a, fieldsNan), (.b, fieldsB1), (.c, fieldsC1)],
      let s : State := { State.reset with pending := validateSequence p.1 (buildFrame .default p.1 p.2) }
      p.2.Valid s.cfg p.1 ∧ p.2.csum = frameChecksum s.cfg p.1 p.2 ∧
      s.pending = validateSequence p.1 (buildFrame s.cfg p.1 p.2) := by
  intro p hp
  simp only [List.mem_cons, List.not_mem_nil, or_false] at hp
  rcases hp with rfl | rfl | rfl
  · exact ⟨⟨by decide, by decide, by decide, fun _ => (by decide), fun _ => (by decide), fun h => (by cases h)⟩,
      by decide, rfl⟩
  · exact ⟨⟨by decide, by decide, by decide, fun _ => (by decide), fun _ => (by decide), fun h => (by cases h)⟩,
      by decide +kernel, rfl⟩
  · exact ⟨⟨by decide, by decide, by decide, fun h => absurd rfl h, fun h => absurd rfl h, fun _ => (by decide)⟩,
      by decide +kernel, rfl⟩

/-- For ValidateIsTheOrderedDecode, FailedValidateShowsNoField and InvalidLengthExactlyWhen: a valid frame, a failing
one, and one longer than every variant's. -/
theorem test_witness_validate_clauses :
    verdict .c vC1 = some .ok ∧ verdict .c vC2 ≠ some .ok ∧
    37 < (framed .default (List.replicate 38 0)).fcnt.toNat ∧
    verdict .c (List.replicate 38 0) = some .invalidLength := by decide +kernel

/-- +infinity and the largest finite number. -/
theorem test_witness_RangePredicates :
    (0x7FF0000000000000 : DWord).msb = false ∧ isNaN 0x7FF0000000000000 = false ∧
    (0x7FEFFFFFFFFFFFFF : DWord).msb = false ∧ isNaN 0x7FEFFFFFFFFFFFFF = false := by decide

/-- Two states that differ in all but the parameters, FCNT and the pushed bytes. -/
theorem test_witness_ValidateDependsOnItsInputsAlone :
    let s := framed .default vB1
    let s' := { s with fb := s.fb.set 28 0x55, crcAcc := 7, crcSel := .crcC, cmdErr := true, result := .ok, rvar := .c }
    s ≠ s' ∧ s.cfg = s'.cfg ∧ s.fcnt = s'.fcnt ∧
    ∀ (i : Fin 37), i.val < s.fcnt.toNat → s.fb[i.val] = s'.fb[i.val] := by decide +kernel

/-- Nothing between the two VALIDATEs, and everything that changes no frame, another VALIDATE among it; the second with
the same operand and with another, in both formats. -/
theorem test_witness_RepeatedValidateIsTheSame :
    ∀ evs ∈ [[], [HostEvent.op (encode (.validate .a)), .op (encode (.wrCrcData 0x31)), .op (encode (.crcInit .crcC)),
        .op (.cmd 0x00000001), .op (encode .clearErr), .op (encode .rdStatus), .op (writeAt 0x04 0),
        .op (accessAt 0x7C .rd)]],
      ∀ q ∈ [(Variant.b, HostEvent.op (.cmd 0x00000103)), (.c, .op (writeAt 0x00 0x00000203))],
        (HostEvent.op (encode (.validate .b))).performs = some (.validate .b) ∧ q.2.performs = some (.validate q.1) ∧
        (∀ e ∈ evs, e.changesFrame = false) ∧
        (facingAll (.op (encode (.validate .b)) :: evs ++ q.2 :: [.reset]) (framed .default vB1)).pending =
          .op (encode (.validate .b)) :: evs ++ q.2 :: [.reset] := by decide +kernel

/-- Two states that differ in the byte at FCNT, about to validate and about to push over it. -/
theorem test_witness_UnpushedFrameBytesAreNeverObservable :
    ∀ e ∈ [HostEvent.op (encode (.validate .b)), push 0x77],
      let s := facing e (framed .default vB1)
      let t := { s with fb := s.fb.set 28 0x55 }
      s ≠ t ∧ SameVisible s t ∧ ∃ s', step s = .next s' := by
  intro e he
  refine ⟨fun h => absurd (congrArg (fun u : State => u.fb[28]) h) (by simp [facing, framed, State.afterReset, vB1]),
    ⟨rfl, ?_⟩, ?_⟩
  · intro i h hi
    exact Vector.getElem_set_ne (i := 28) (by decide) h (Nat.ne_of_gt hi)
  · simp only [List.mem_cons, List.not_mem_nil, or_false] at he
    rcases he with rfl | rfl <;> exact ⟨_, rfl⟩

/-- Setting, clearing and keeping the flag. -/
theorem test_witness_CmdErrIsSetAndClearedAsStated :
    (∃ t, step (facing (.op (.cmd 0x00000303)) State.reset) = .next t) ∧
    (HostEvent.op (.cmd 0x00000303)).performs = some (.illegalCommandWord 0x303) ∧
    (∃ t, step (facing (.op (.cmd 0x00000004)) busy) = .next t) ∧
    (HostEvent.op (.cmd 0x00000004)).performs = some .clearErr ∧
    (∃ t, step (facing (.op (encode .rdStatus)) busy) = .next t) ∧ busy.cmdErr = true ∧
    (HostEvent.op (encode .rdStatus)).performs ≠ some .clearErr ∧ HostEvent.op (encode .rdStatus) ≠ .reset :=
  ⟨⟨_, rfl⟩, by decide, ⟨_, rfl⟩, by decide, ⟨_, rfl⟩, by decide, by decide, by decide⟩

theorem test_witness_OnlyValidateWritesTheResult :
    (∃ t, step (facing (.op (encode .clearErr)) busy) = .next t) ∧ HostEvent.op (encode .clearErr) ≠ .reset ∧
    (∀ v, (HostEvent.op (encode .clearErr)).performs ≠ some (.validate v)) ∧ busy.result ≠ .noResult :=
  ⟨⟨_, rfl⟩, by decide, fun v h => by cases v <;> revert h <;> decide, by decide⟩

/-- An event that feeds a byte and one that feeds none. -/
theorem test_witness_OnlyCrcAccessesWriteTheCrc :
    (∃ t, step (facing (.op (writeAt 0x08 0x31)) busy) = .next t) ∧
    (HostEvent.op (writeAt 0x08 0x31)).startsCrc = false ∧ (HostEvent.op (writeAt 0x08 0x31)).fedByte = some 0x31 ∧
    (∃ t, step (facing (push 0x41) busy) = .next t) ∧ (push 0x41).startsCrc = false ∧ (push 0x41).fedByte = none :=
  ⟨⟨_, rfl⟩, by decide, by decide, ⟨_, rfl⟩, by decide, by decide⟩

/-- A push at the last free index changes a byte; a feed leaves the counter. -/
theorem test_witness_OnlyPushesWriteTheFrameBuffer :
    (after (step (facing (push 0xBB) { busy with fcnt := 36 }))).map (fun t => t.fb[36] ≠ busy.fb[36]) = some True ∧
    (∃ t, step (facing (.op (writeAt 0x08 0x31)) busy) = .next t) ∧
    HostEvent.op (writeAt 0x08 0x31) ≠ .reset ∧
    (HostEvent.op (writeAt 0x08 0x31)).performs = some (.wrCrcData 0x31) := by
  refine ⟨?_, ⟨_, rfl⟩, by decide, by decide⟩
  have h : (after (step (facing (push 0xBB) { busy with fcnt := 36 }))).map (fun t => t.fb[36]) = some 0xBB := by
    decide +kernel
  obtain ⟨t, ht, hb⟩ := Option.map_eq_some_iff.1 h
  rw [ht, Option.map_some, hb]
  exact congrArg some (eq_true (by decide))

end Sys2Proof.Tests
end

section
/-! # The state of CRCV: what a step may change, and what it depends on (10_state.md)

The first part says what the next state is, by the row that the event taken performs; who may write which element is
read off from it. The second part is the noninterference of the frame buffer bytes at or above FCNT. -/

namespace Sys2Proof.Machine

/-! ### The effect of a step, by the row that its event performs -/

/-- The rows that change nothing but the response: every read, every ignored write and every rejected access. -/
def quietRow : Instr → Bool
  | .crcInit _ | .frameClear | .validate _ | .clearErr | .illegalCommandWord _ | .wrCmd _
  | .wrCrcData _ | .wrFrameData _ => false
  | _ => true

/-- The next state that a step has, by the row that is performed (`none` for reset), from a state whose event is already
taken. `step_effect` ties it to `step`. -/
inductive Effect (s : State) : Option Instr → State → Prop
  | reset : Effect s none (platformReset s)
  | crcInit (p : ProfileSel) : Effect s (some (.crcInit p)) (okay (setCrc p (profileOf s.cfg p).init s))
  | frameClear : Effect s (some .frameClear) (okay (clearFrame s))
  | validate (v : Variant) :
      Effect s (some (.validate v))
        (okay (setOutcome (validateCode s.cfg v s.fcnt s.fb) v (validateFields s.cfg v s.fcnt s.fb) s))
  | clearErr : Effect s (some .clearErr) (okay (clearCmdErr s))
  | illegal (w : Word) : Effect s (some (.illegalCommandWord w)) (raiseCmdError s)
  | feed (w : Word) : Effect s (some (.wrCrcData w)) (okay (feedByte (byteOperand w) s))
  | push (w : Word) : Effect s (some (.wrFrameData w)) (okay (pushByte (byteOperand w) s))
  | quiet (i : Instr) (r : Response) (hi : quietRow i = true) : Effect s (some i) { s with response := r }

/-- A write to CMD does what the row of its command word does (30_encoding.md R73). -/
theorem exec_resolve (i : Instr) (s : State) : exec i.resolve s = exec i s := by
  cases i
  case wrCmd w =>
    change exec (decodeCommand w).toInstr s = execWrCmd w s
    unfold execWrCmd
    cases decodeCommand w <;> rfl
  all_goals rfl

/-- Any row but WR_CMD has its own effect. -/
theorem effect_of_exec {i : Instr} {s t : State} (hi : ∀ w, i ≠ .wrCmd w) (h : exec i s = .next t) :
    Effect s (some i) t := by
  cases i
  case wrCmd w => exact absurd rfl (hi w)
  case crcInit p => cases h; exact .crcInit p
  case frameClear => cases h; exact .frameClear
  case validate v => cases h; exact .validate v
  case clearErr => cases h; exact .clearErr
  case illegalCommandWord w => cases h; exact .illegal w
  case wrCrcData w => cases h; exact .feed w
  case wrFrameData w => cases h; exact .push w
  all_goals cases h; exact .quiet _ _ rfl

/-- A step takes the first event and has the effect of the row that the event performs. -/
theorem step_effect {s t : State} {e : HostEvent} {rest : List HostEvent} (hp : s.pending = e :: rest)
    (h : step s = .next t) : Effect { s with pending := rest } e.performs t := by
  cases e with
  | reset =>
    rw [step_reset hp] at h
    cases h
    exact .reset
  | op o =>
    rw [step_op hp, ← exec_resolve] at h
    exact effect_of_exec (resolve_ne_wrCmd (decode o)) h

theorem performs_eq_none {e : HostEvent} : e.performs = none ↔ e = .reset := by cases e <;> simp

/-! ### Who writes which element -/

theorem Effect.crcSel_eq {s t : State} {i : Instr} (h : Effect s (some i) t) (hi : ∀ p, i ≠ .crcInit p) :
    t.crcSel = s.crcSel := by
  cases h
  case crcInit p => exact absurd rfl (hi p)
  all_goals rfl

theorem Effect.crcAcc_eq {s t : State} {i : Instr} (h : Effect s (some i) t) (hi : ∀ p, i ≠ .crcInit p)
    (hf : ∀ w, i ≠ .wrCrcData w) : t.crcAcc = s.crcAcc := by
  cases h
  case crcInit p => exact absurd rfl (hi p)
  case feed w => exact absurd rfl (hf w)
  all_goals rfl

theorem Effect.crcAcc_of_feed {s t : State} {w : Word} (h : Effect s (some (.wrCrcData w)) t) :
    t.crcAcc = crcStep (profileOf s.cfg s.crcSel) s.crcAcc (byteOperand w) := by
  cases h with
  | feed => rfl
  | quiet _ _ hi => cases hi

theorem Effect.fb_eq {s t : State} {p : Option Instr} (h : Effect s p t) (hp : ∀ w, p ≠ some (.wrFrameData w)) :
    t.fb = s.fb := by
  cases h
  case push w => exact absurd rfl (hp w)
  all_goals rfl

theorem Effect.fb_of_push {s t : State} {w : Word} (h : Effect s (some (.wrFrameData w)) t) :
    t.fb = storeByte s.fb s.fcnt (byteOperand w) := by
  cases h with
  | push => rfl
  | quiet _ _ hi => cases hi

theorem Effect.fcnt_eq {s t : State} {p : Option Instr} (h : Effect s p t) (hr : p ≠ none) (hc : p ≠ some .frameClear)
    (hp : ∀ w, p ≠ some (.wrFrameData w)) : t.fcnt = s.fcnt := by
  cases h
  case reset => exact absurd rfl hr
  case frameClear => exact absurd rfl hc
  case push w => exact absurd rfl (hp w)
  all_goals rfl

/-- An event feeds a byte exactly when it performs WR_CRC_DATA with that byte as operand. -/
theorem fedByte_eq_some {e : HostEvent} {b : Byte} :
    e.fedByte = some b ↔ ∃ w, e.performs = some (.wrCrcData w) ∧ byteOperand w = b := by
  unfold HostEvent.fedByte
  split
  · rename_i w hw
    simp [hw]
  · rename_i hne
    simp only [reduceCtorEq, false_iff]
    rintro ⟨w, hw, -⟩
    exact hne w hw

theorem performs_ne_of_fedByte_none {e : HostEvent} (h : e.fedByte = none) (w : Word) :
    e.performs ≠ some (.wrCrcData w) := fun hw => by
  rw [fedByte_eq_some.2 ⟨w, hw, rfl⟩] at h
  cases h

/-- Settles O48: the effect of every row but CRC.INIT leaves CRCSEL, and only WR_CRC_DATA among them feeds CRC_ACC. -/
theorem onlyCrcAccessesWriteTheCrc : Obligations.OnlyCrcAccessesWriteTheCrc := by
  intro s t e rest hp h hs
  have heff := step_effect hp h
  obtain ⟨i, hi, hinit⟩ := startsCrc_eq_false hs
  rw [hi] at heff
  refine ⟨heff.crcSel_eq hinit, fun hnone => ?_, fun b hb => ?_⟩
  · exact heff.crcAcc_eq hinit fun w hw => performs_ne_of_fedByte_none hnone w (hw ▸ hi)
  · obtain ⟨w, hw, rfl⟩ := fedByte_eq_some.1 hb
    obtain rfl : i = .wrCrcData w := Option.some.inj (hi.symm.trans hw)
    exact heff.crcAcc_of_feed

/-- Settles O49: a changed byte means a push, and a push changes no byte but the one at FCNT. -/
theorem onlyPushesWriteTheFrameBuffer : Obligations.OnlyPushesWriteTheFrameBuffer := by
  intro s t e rest hp h
  have heff := step_effect hp h
  refine ⟨fun i hi hne => ?_, fun hr hc hpush => heff.fcnt_eq (mt performs_eq_none.1 hr) hc hpush⟩
  by_cases hpush : ∃ w, e.performs = some (.wrFrameData w)
  · refine ⟨?_, hpush⟩
    obtain ⟨w, hw⟩ := hpush
    rw [hw] at heff
    by_contra hidx
    apply hne
    simp only [heff.fb_of_push, storeByte_getElem, if_neg (Ne.symm hidx)]
  · refine absurd ?_ hne
    simp only [heff.fb_eq fun w hw => hpush ⟨w, hw⟩]

/-! ### Reset -/

theorem afterReset_consistent (cfg : Config) (fb : FrameBuf) : (State.afterReset cfg fb).Consistent where
  zero_unless_ok _ := rfl
  no_result_rvar _ := rfl
  valid_if_ok h := by cases h
  checksum_if_ok h := by cases h

/-- Settles O1: the reset event's next state is `platformReset`, whose elements are R38's. -/
theorem resetLeavesTheSpecValues : Obligations.ResetLeavesTheSpecValues := by
  refine ⟨fun s rest hp => ⟨_, step_reset hp, ?_⟩, ?_⟩
  · simp [crcSelBit, ResultCode.bits, rvarBits, Fields.zero]
  · simp [State.reset, Config.default, Profile.ccittFalse, crcSelBit, ResultCode.bits, rvarBits, Fields.zero]

/-- Settles O2: RESULT is 0xF after reset, so nothing is claimed of a packet, and the registers are 0. -/
theorem resetIsConsistent : Obligations.ResetIsConsistent :=
  ⟨afterReset_consistent, afterReset_consistent _ _⟩

/-! ### VALIDATE reads the pushed bytes only -/

/-- Frame buffers with the same bytes below index `n`. -/
def AgreeBelow (n : Nat) (fb fb' : FrameBuf) : Prop := ∀ (i : Nat) (h : i < fbDepth), i < n → fb[i] = fb'[i]

theorem AgreeBelow.mono {m n : Nat} {fb fb' : FrameBuf} (h : AgreeBelow n fb fb') (hmn : m ≤ n) :
    AgreeBelow m fb fb' := fun i hi hm => h i hi (Nat.lt_of_lt_of_le hm hmn)

theorem AgreeBelow.be2_eq {n off : Nat} {fb fb' : FrameBuf} (h : AgreeBelow n fb fb') (hoff : off + 1 < fbDepth)
    (hn : off + 1 < n) : be2 fb off hoff = be2 fb' off hoff := by
  simp only [be2, h off (by omega) (by omega), h (off + 1) hoff hn]

theorem AgreeBelow.be8_eq {n off : Nat} {fb fb' : FrameBuf} (h : AgreeBelow n fb fb') (hoff : off + 7 < fbDepth)
    (hn : off + 7 < n) : be8 fb off hoff = be8 fb' off hoff := by
  have byte (k : Nat) (hk : k ≤ 7) : fb[off + k]'(by omega) = fb'[off + k]'(by omega) := h _ (by omega) (by omega)
  simp only [be8, byte 1 (by omega), byte 2 (by omega), byte 3 (by omega), byte 4 (by omega), byte 5 (by omega),
    byte 6 (by omega), byte 7 (by omega), h off (by omega) (by omega)]

theorem AgreeBelow.checksumField_eq {v : Variant} {fb fb' : FrameBuf} (h : AgreeBelow (frameLen v) fb fb') :
    checksumField fb v = checksumField fb' v := by
  cases v with
  | a => rfl
  | b => exact h.be2_eq (by decide) (by decide)
  | c => exact h.be2_eq (by decide) (by decide)

/-- Every field that a variant carries lies in the first L(v) bytes of the frame (30_encoding.md R76). -/
theorem AgreeBelow.parse_eq {v : Variant} {fb fb' : FrameBuf} (h : AgreeBelow (frameLen v) fb fb') :
    parse v fb = parse v fb' := by
  cases v
  case a | b =>
    simp only [parse, h.checksumField_eq, h.be8_eq (off := 0) (by decide) (by decide), h 8 (by decide) (by decide),
      h 9 (by decide) (by decide), h.be8_eq (off := 10) (by decide) (by decide),
      h.be8_eq (off := 18) (by decide) (by decide)]
  case c =>
    simp only [parse, h.checksumField_eq, h.be8_eq (off := 0) (by decide) (by decide), h 8 (by decide) (by decide),
      h.be2_eq (off := 9) (by decide) (by decide), h.be8_eq (off := 11) (by decide) (by decide),
      h.be8_eq (off := 19) (by decide) (by decide), h.be8_eq (off := 27) (by decide) (by decide)]

theorem AgreeBelow.badChecksum_eq {v : Variant} {fb fb' : FrameBuf} (cfg : Config)
    (h : AgreeBelow (frameLen v) fb fb') : badChecksum cfg v fb = badChecksum cfg v fb' := by
  have hbody : frameBytes fb (frameLen v - 2) = frameBytes fb' (frameLen v - 2) :=
    frameBytes_congr (h.mono (Nat.sub_le _ _))
  simp only [badChecksum, h.checksumField_eq, hbody]

/-- With a wrong length no byte is read; with the right one only the L(v) pushed bytes are. -/
theorem AgreeBelow.validateCode_eq {n : Half} {fb fb' : FrameBuf} (cfg : Config) (v : Variant)
    (h : AgreeBelow n.toNat fb fb') : validateCode cfg v n fb = validateCode cfg v n fb' := by
  unfold validateCode
  split
  · rfl
  · rename_i hlen
    have hframe : AgreeBelow (frameLen v) fb fb' := h.mono (by omega)
    rw [hframe.badChecksum_eq, hframe.parse_eq]

/-- Fields are parsed after a success only, and then L(v) bytes were pushed. -/
theorem AgreeBelow.validateFields_eq {n : Half} {fb fb' : FrameBuf} (cfg : Config) (v : Variant)
    (h : AgreeBelow n.toNat fb fb') : validateFields cfg v n fb = validateFields cfg v n fb' := by
  have hcode := h.validateCode_eq cfg v
  by_cases hok : validateCode cfg v n fb = .ok
  · have hlen : n.toNat = frameLen v := (validateCode_eq_ok.1 hok).1
    rw [validateFields_of_ok hok, validateFields_of_ok (hcode ▸ hok), (h.mono hlen.ge).parse_eq]
  · rw [validateFields_of_not_ok hok, validateFields_of_not_ok (hcode ▸ hok)]

/-- Settles O43: result code and fields are functions of the parameters, FCNT and the bytes below FCNT. -/
theorem validateDependsOnItsInputsAlone : Obligations.ValidateDependsOnItsInputsAlone := by
  intro v s s' hcfg hfcnt hfb
  have hagree : AgreeBelow s.fcnt.toNat s.fb s'.fb := hfb
  refine ⟨_, _, rfl, rfl, ?_, rfl, ?_⟩
  · simp only [okay_result, setOutcome_result, ← hcfg, ← hfcnt, hagree.validateCode_eq s.cfg v]
  · simp only [okay_res, setOutcome_res, ← hcfg, ← hfcnt, hagree.validateFields_eq s.cfg v]

/-! ### Unpushed bytes never show -/

/-- The rows whose effect depends on the frame buffer or writes it; WR_CMD among them, since its word may be VALIDATE. -/
def usesBuffer : Instr → Bool
  | .validate _ | .wrFrameData _ | .wrCmd _ => true
  | _ => false

/-- A row that does not use the frame buffer does the same over any other buffer, keeps every byte and pushes none. -/
theorem exec_of_not_usesBuffer {i : Instr} {s s' : State} (hi : usesBuffer i = false) (h : exec i s = .next s')
    (fb : FrameBuf) :
    exec i { s with fb := fb } = .next { s' with fb := fb } ∧ s'.fb = s.fb ∧ s'.fcnt.toNat ≤ s.fcnt.toNat := by
  cases i
  case validate | wrFrameData | wrCmd => cases hi
  case frameClear => cases h; exact ⟨rfl, rfl, Nat.zero_le _⟩
  all_goals cases h; exact ⟨rfl, rfl, Nat.le_refl _⟩

/-- A push stores the same byte at the same index in both buffers, so they agree up to the new count. -/
theorem AgreeBelow.storeByte {n : Half} {fb fb' : FrameBuf} (b : Byte) (h : AgreeBelow n.toNat fb fb') :
    AgreeBelow (countByte n).toNat (storeByte fb n b) (storeByte fb' n b) := by
  intro i hi hlt
  rw [countByte_toNat] at hlt
  rw [storeByte_getElem, storeByte_getElem]
  split
  · rfl
  · exact h i hi (by omega)

theorem SameVisible.agreeBelow {s t : State} (h : SameVisible s t) : AgreeBelow s.fcnt.toNat t.fb s.fb := h.same_pushed

/-- States that differ in unpushed bytes only, given as one state with two buffers. -/
theorem sameVisible_withFb {s : State} {fb : FrameBuf} (h : AgreeBelow s.fcnt.toNat fb s.fb) :
    SameVisible s { s with fb := fb } := ⟨rfl, h⟩

theorem SameVisible.takeEvent {s t : State} (h : SameVisible s t) (rest : List HostEvent) :
    SameVisible { s with pending := rest } { t with pending := rest } := by
  obtain ⟨heq, hpushed⟩ := h
  exact ⟨by rw [heq], hpushed⟩

theorem SameVisible.pending_eq {s t : State} (h : SameVisible s t) : t.pending = s.pending := by rw [h.same_but_fb]

theorem SameVisible.platformReset {s t : State} (h : SameVisible s t) :
    SameVisible (platformReset s) (platformReset t) := by
  refine ⟨by rw [h.same_but_fb]; rfl, fun i _ hi => ?_⟩
  simp at hi

/-- Every row keeps states alike that differ in unpushed bytes only: VALIDATE reads none of them, a push overwrites the
first of them, and no other row uses the buffer. -/
theorem SameVisible.exec {i : Instr} {s t s' : State} (h : SameVisible s t) (hi : ∀ w, i ≠ .wrCmd w)
    (hs : exec i s = .next s') : ∃ t', exec i t = .next t' ∧ SameVisible s' t' := by
  have hagree := h.agreeBelow
  rw [h.same_but_fb]
  generalize t.fb = fb at hagree
  cases huse : usesBuffer i with
  | false =>
    obtain ⟨ht, hfb, hle⟩ := exec_of_not_usesBuffer huse hs fb
    exact ⟨_, ht, sameVisible_withFb (hfb ▸ hagree.mono hle)⟩
  | true =>
    cases i
    case wrCmd w => exact absurd rfl (hi w)
    case validate v =>
      cases hs
      refine ⟨_, rfl, ?_⟩
      simp only [hagree.validateCode_eq s.cfg v, hagree.validateFields_eq s.cfg v]
      exact sameVisible_withFb hagree
    case wrFrameData w =>
      cases hs
      exact ⟨_, rfl, rfl, hagree.storeByte _⟩
    all_goals cases huse

/-- Settles O45: both states take the same event, and reset as well as every row keeps `SameVisible`. -/
theorem unpushedFrameBytesAreNeverObservable : Obligations.UnpushedFrameBytesAreNeverObservable := by
  intro s t s' hst hs
  cases hp : s.pending with
  | nil =>
    rw [step_nil hp] at hs
    cases hs
    exact ⟨t, step_nil (hst.pending_eq.trans hp), hst⟩
  | cons e rest =>
    have hpt := hst.pending_eq.trans hp
    cases e with
    | reset =>
      rw [step_reset hp] at hs
      cases hs
      exact ⟨_, step_reset hpt, (hst.takeEvent rest).platformReset⟩
    | op o =>
      rw [step_op hp, ← exec_resolve] at hs
      rw [step_op hpt, ← exec_resolve]
      exact (hst.takeEvent rest).exec (resolve_ne_wrCmd (decode o)) hs

end Sys2Proof.Machine
end

section
/-! # Accesses: the order in which they come, what a read may change, and where they land (20_memory.md)

The order of events and the frame of a read rest on `Effect` and `quietRow`, which say what a row may change. The wide
fields rest on `parse`, whose 64-bit fields are each eight bytes of the frame buffer. -/

namespace Sys2Proof.Machine

/-! ### One event per step -/

/-- Whatever a row does, it takes no further event and no parameter changes. -/
theorem Effect.pending_cfg_eq {s t : State} {p : Option Instr} (h : Effect s p t) :
    t.pending = s.pending ∧ t.cfg = s.cfg := by
  cases h <;> exact ⟨rfl, rfl⟩

/-- Settles O7: with nothing pending the state stays, and otherwise the effect is that of a row on the state whose first
event is taken. -/
theorem eventsAreTakenInOrder : Obligations.EventsAreTakenInOrder := by
  intro s t h
  cases hp : s.pending with
  | nil =>
    rw [step_nil hp] at h
    cases h
    exact ⟨hp, rfl⟩
  | cons e rest => exact (step_effect hp h).pending_cfg_eq

theorem step_arrive_op (o : Operation) (s : State) : step (arrive (.op o) s) = exec (decode o) s :=
  step_op (arrive_pending _ s)

theorem withFetchWord_of_tableOperation {nbits w : Nat} {o : Operation} (h : tableOperation nbits w = some o)
    (s : State) : s.withFetchWord nbits w = arrive (.op o) s := by
  simp [State.withFetchWord, h]

/-- Settles O5: `withFetchWord` lets the very operation arrive that the decoder reads from the table bits. -/
theorem stepRunsTheDecodedOperation : Obligations.StepRunsTheDecodedOperation := by
  refine ⟨fun s o rest hp => step_op hp, fun s nbits w i h => ?_⟩
  obtain ⟨o, ho, rfl⟩ := Option.map_eq_some_iff.1 h
  rw [withFetchWord_of_tableOperation ho, step_arrive_op]

/-! ### Reads -/

/-- Every read decodes to a row that changes nothing but the response: a rejected access, or one of the 32 word-aligned
reads of the table. -/
theorem quietRow_decode_rd (off : Offset) (size : AccessSize) :
    quietRow (decode (.bus { dir := .rd, off := off, size := size })) = true := by
  change quietRow (decodeBus _) = true
  cases ha : Access.admitted { dir := .rd, off := off, size := size } with
  | false => rw [decodeBus_of_not_admitted ha]; rfl
  | true =>
    obtain ⟨rfl, k, rfl⟩ := admitted_iff.1 ha
    revert k
    decide

/-- A row that changes nothing but the response does not look at the last response either, so it answers the same when
it is repeated. -/
theorem exec_quietRow_repeats {i : Instr} (hi : quietRow i = true) (s : State) :
    ∃ r, exec i s = .next { s with response := r } ∧
      exec i { s with response := r } = .next { s with response := r } := by
  cases i
  case crcInit | frameClear | validate | clearErr | illegalCommandWord | wrCmd | wrCrcData | wrFrameData => cases hi
  all_goals exact ⟨_, rfl, rfl⟩

/-- Settles O19: every read is a row that changes nothing but the response. -/
theorem readsChangeNoState : Obligations.ReadsChangeNoState :=
  fun off size s => exec_quietRow_repeats (quietRow_decode_rd off size) s

/-! ### The window on the bus -/

theorem windowOffset_of_mem {base addr : Nat} (h : base ≤ addr ∧ addr < base + 128) :
    ∃ off, windowOffset base addr = some off ∧ base + off.toNat = addr := by
  refine ⟨_, if_pos h, ?_⟩
  rw [BitVec.toNat_ofNat]
  omega

theorem windowOffset_of_not_mem {base addr : Nat} (h : addr < base ∨ base + 128 ≤ addr) :
    windowOffset base addr = none := if_neg (by omega)

theorem request_of_route {r : BusRequest} {a : Access} (h : route r = some a) (s : State) :
    request r s = { s with pending := s.pending ++ [.op (.bus a)] } := by simp [request, h]

theorem request_of_route_none {r : BusRequest} (h : route r = none) (s : State) : request r s = s := by
  simp [request, h]

/-- Settles O22: `route` gives an access exactly where the window has an offset, and `request` follows `route`. -/
theorem busWindowIs128BytesAtBase : Obligations.BusWindowIs128BytesAtBase := by
  refine ⟨Nat.mul_mod_right 128 _, fun r s => ⟨fun h => ?_, fun h => ?_⟩⟩
  · obtain ⟨off, hoff, haddr⟩ := windowOffset_of_mem h
    have hroute : route r = some { dir := r.dir, off := off, size := r.size } := by simp [route, hoff]
    exact ⟨_, hroute, haddr, rfl, rfl, request_of_route hroute s⟩
  · have hroute : route r = none := by simp [route, windowOffset_of_not_mem h]
    exact ⟨hroute, request_of_route_none hroute s⟩

/-! ### The 64-bit fields and their two words -/

/-- The bytes of `be_8` are a slice of the frame buffer. -/
theorem slice_eight (fb : FrameBuf) (off : Nat) (h : off + 7 < fbDepth) :
    slice off 8 fb.toList = bytes8 (be8 fb off h) := by
  rw [bytes8_be8, toList_eq_frameBytes]
  repeat rw [slice_succ fb fbDepth _ _ le_rfl (by omega)]
  rw [slice_zero]

theorem beNat_bytes8_be8 (fb : FrameBuf) (off : Nat) (h : off + 7 < fbDepth) :
    beNat (bytes8 (be8 fb off h)) = (be8 fb off h).toNat := by
  rw [bytes8_be8, be8_toNat]

theorem hiHalf_top_byte (x : DWord) : (hiHalf x).extractLsb' 24 8 = x.extractLsb' 56 8 := by
  ext i hi
  simp [hiHalf, ← Nat.add_assoc, show 24 + i < 32 by omega]

theorem loHalf_low_byte (x : DWord) : (loHalf x).extractLsb' 0 8 = x.extractLsb' 0 8 := by
  ext i
  simp [loHalf]

/-- The first byte of `be_8` is the top byte of the HI word, and the last is the low byte of the LO word. -/
theorem halves_be8_outer_bytes (fb : FrameBuf) (off : Nat) (h : off + 7 < fbDepth) :
    (hiHalf (be8 fb off h)).extractLsb' 24 8 = fb[off] ∧ (loHalf (be8 fb off h)).extractLsb' 0 8 = fb[off + 7] := by
  have hbytes := bytes8_be8 fb off h
  simp only [bytes8, List.cons.injEq] at hbytes
  obtain ⟨hfirst, -, -, -, -, -, -, hlast, -⟩ := hbytes
  exact ⟨(hiHalf_top_byte _).trans hfirst, (loHalf_low_byte _).trans hlast⟩

theorem parse_key (v : Variant) (fb : FrameBuf) : (parse v fb).key = be8 fb 0 := by cases v <;> rfl

theorem parse_price (v : Variant) (fb : FrameBuf) :
    (parse v fb).price = be8 fb (if v = .c then 11 else 10) (by split <;> decide) := by cases v <;> rfl

theorem parse_volume (v : Variant) (fb : FrameBuf) :
    (parse v fb).volume = be8 fb (if v = .c then 19 else 18) (by split <;> decide) := by cases v <;> rfl

theorem parse_expire_c (fb : FrameBuf) : (parse .c fb).expire = be8 fb 27 := rfl

/-- The two rows of `p` read, at state `t`, the HI and the LO word of the eight bytes of `fb` from index `p.2.2` on. -/
def ReadsWideField (fb : FrameBuf) (t : State) (p : Instr × Instr × Nat) : Prop :=
  ∃ hi lo : Word,
    exec p.1 t = .next { t with response := .okayData hi } ∧
    exec p.2.1 t = .next { t with response := .okayData lo } ∧
    (hi ++ lo).toNat = beNat (slice p.2.2 8 fb.toList) ∧
    fb[p.2.2]? = some (hi.extractLsb' 24 8) ∧ fb[p.2.2 + 7]? = some (lo.extractLsb' 0 8)

/-- Rows that answer the halves of a register read a wide field if the register holds `be_8` of the frame buffer. -/
theorem readsWideField_of_be8 {fb : FrameBuf} {t : State} {rdHi rdLo : Instr} {off : Nat} {x : DWord}
    {h : off + 7 < fbDepth} (hx : x = be8 fb off h) (hhi : exec rdHi t = .next (answer (hiHalf x) t))
    (hlo : exec rdLo t = .next (answer (loHalf x) t)) : ReadsWideField fb t (rdHi, rdLo, off) := by
  subst hx
  obtain ⟨hfirst, hlast⟩ := halves_be8_outer_bytes fb off h
  refine ⟨_, _, hhi, hlo, ?_, ?_, ?_⟩
  · rw [hi_append_lo, slice_eight fb off h, beNat_bytes8_be8]
  · rw [hfirst, Vector.getElem?_eq_getElem]
  · rw [hlast, Vector.getElem?_eq_getElem]

/-- A state whose result registers hold the parsed frame shows each wide field that the variant carries in its pair of
registers. -/
theorem readsWideField_of_parse {v : Variant} {fb : FrameBuf} {t : State} (ht : t.res = parse v fb) :
    ReadsWideField fb t (.rdKeyHi, .rdKeyLo, 0) ∧
    ReadsWideField fb t (.rdPriceHi, .rdPriceLo, if v = .c then 11 else 10) ∧
    ReadsWideField fb t (.rdVolumeHi, .rdVolumeLo, if v = .c then 19 else 18) ∧
    (v = .c → ReadsWideField fb t (.rdExpireHi, .rdExpireLo, 27)) := by
  refine ⟨?_, ?_, ?_, ?_⟩
  · exact readsWideField_of_be8 ((congrArg Fields.key ht).trans (parse_key v fb)) rfl rfl
  · exact readsWideField_of_be8 ((congrArg Fields.price ht).trans (parse_price v fb)) rfl rfl
  · exact readsWideField_of_be8 ((congrArg Fields.volume ht).trans (parse_volume v fb)) rfl rfl
  · rintro rfl
    exact readsWideField_of_be8 ((congrArg Fields.expire ht).trans (parse_expire_c fb)) rfl rfl

/-- Settles O26: a successful VALIDATE leaves the parsed frame in the result registers. -/
theorem wideFieldsSplitBigEndian : Obligations.WideFieldsSplitBigEndian := by
  intro v s hok
  refine ⟨_, rfl, ?_⟩
  obtain ⟨hkey, hprice, hvolume, hexpire⟩ := readsWideField_of_parse (fb := s.fb)
    (t := okay (setOutcome (validateCode s.cfg v s.fcnt s.fb) v (validateFields s.cfg v s.fcnt s.fb) s))
    (validateFields_of_ok hok)
  intro p hp
  rw [List.mem_append] at hp
  rcases hp with hp | hp
  · simp only [List.mem_cons, List.not_mem_nil, or_false] at hp
    rcases hp with rfl | rfl | rfl
    exacts [hkey, hprice, hvolume]
  · split at hp
    · obtain rfl := List.mem_singleton.1 hp
      exact hexpire ‹_›
    · cases hp

end Sys2Proof.Machine
end

section
/-! # The decoder and the encoder (30_encoding.md)

Command words round trip through their three fields, bus accesses through the row that their key selects. So `decode`
and `encode` are inverse to each other (`decode_eq_iff`), and what a write to CMD does follows from that. -/

namespace Sys2Proof

/-! ### Command words -/

theorem profileOfVar_eq_some {var : BitVec 2} {p : ProfileSel} : profileOfVar var = some p ↔ var = p.var := by
  cases p <;> revert var <;> decide

theorem variantOfVar_eq_some {var : BitVec 2} {v : Variant} : variantOfVar var = some v ↔ var = v.var := by
  cases v <;> revert var <;> decide

theorem noOperand_eq_some {c c' : Command} {var : BitVec 2} : noOperand c var = some c' ↔ var = 0 ∧ c = c' := by
  simp [noOperand]

/-- A word whose ZERO field is 0 is made of its two other fields. -/
theorem commandWord_fields {w : Word} (h : cmdZero w = 0) : commandWord (cmdOpc w) (cmdVar w) = w := by
  have hw := word_eq_fields w
  rw [h] at hw
  exact hw.symm

/-- The fields that name a command are the ones it is encoded with. -/
theorem encode_of_commandOf {opc : BitVec 8} {var : BitVec 2} {c : Command} (h : commandOf opc var = some c) :
    c.toInstr.wellFormed = true ∧ encode c.toInstr = .cmd (commandWord opc var) := by
  unfold commandOf at h
  split_ifs at h with hinit hclear hvalidate herr
  · obtain ⟨p, hp, rfl⟩ := Option.map_eq_some_iff.1 h
    rw [hinit, profileOfVar_eq_some.1 hp]
    exact ⟨rfl, rfl⟩
  · obtain ⟨rfl, rfl⟩ := noOperand_eq_some.1 h
    rw [hclear]
    exact ⟨rfl, rfl⟩
  · obtain ⟨v, hv, rfl⟩ := Option.map_eq_some_iff.1 h
    rw [hvalidate, variantOfVar_eq_some.1 hv]
    exact ⟨rfl, rfl⟩
  · obtain ⟨rfl, rfl⟩ := noOperand_eq_some.1 h
    rw [herr]
    exact ⟨rfl, rfl⟩

/-- The opcodes that exist, each with the VAR values that are legal for it (30_encoding.md R73). -/
theorem commandOf_isSome (opc : BitVec 8) (var : BitVec 2) : (commandOf opc var).isSome =
    ((opc == 0x01 && (var == 1 || var == 2)) || (opc == 0x02 && var == 0) ||
     (opc == 0x03 && (var == 0 || var == 1 || var == 2)) || (opc == 0x04 && var == 0)) := by
  unfold commandOf
  split_ifs with hinit hclear hvalidate herr
  · subst hinit; decide +revert
  · subst hclear; decide +revert
  · subst hvalidate; decide +revert
  · subst herr; decide +revert
  · rw [beq_false_of_ne hinit, beq_false_of_ne hclear, beq_false_of_ne hvalidate, beq_false_of_ne herr]
    rfl

/-- `legal` and the command decoder accept the same words. -/
theorem legal_eq_isSome (w : Word) :
    legal w = (cmdZero w == 0 && (commandOf (cmdOpc w) (cmdVar w)).isSome) := by
  rw [commandOf_isSome]
  rfl

theorem decodeCommand_of_illegal {w : Word} (h : legal w = false) : decodeCommand w = .illegal w := by
  rw [legal_eq_isSome] at h
  unfold decodeCommand
  split_ifs with hz
  · have hnone : commandOf (cmdOpc w) (cmdVar w) = none := by simpa [hz] using h
    rw [hnone]
    rfl
  · rfl

theorem commandOf_of_legal {w : Word} (h : legal w = true) :
    cmdZero w = 0 ∧ commandOf (cmdOpc w) (cmdVar w) = some (decodeCommand w) := by
  rw [legal_eq_isSome, Bool.and_eq_true, beq_iff_eq, Option.isSome_iff_exists] at h
  obtain ⟨hz, c, hc⟩ := h
  refine ⟨hz, ?_⟩
  rw [decodeCommand, if_pos hz, hc]
  rfl

/-- Decoding `o` gives a well-formed term, and encoding that term gives `o` again. -/
def RoundTrips (o : Operation) : Prop := (decode o).wellFormed = true ∧ encode (decode o) = o

theorem roundTrips_cmd (w : Word) : RoundTrips (.cmd w) := by
  rw [RoundTrips, decode]
  cases hw : legal w with
  | false =>
    rw [decodeCommand_of_illegal hw]
    exact ⟨by simp [Command.toInstr, Instr.wellFormed, hw], rfl⟩
  | true =>
    obtain ⟨hz, hc⟩ := commandOf_of_legal hw
    have h := encode_of_commandOf hc
    rwa [commandWord_fields hz] at h

/-! ### Bus accesses -/

theorem decode_readAt {off : Offset} {r : BusRow} (hoff : off.extractLsb' 0 2 = 0)
    (hr : busRow? ((0 : BitVec 1) ++ off) = some r) :
    decode (readAt off) = r.build { dir := .rd, off := off, size := .word } :=
  decodeBus_of_row (admitted_word _ hoff) (key_rd off _) hr

theorem decode_writeAt {off : Offset} {w : Word} {r : BusRow} (hoff : off.extractLsb' 0 2 = 0)
    (hr : busRow? ((1 : BitVec 1) ++ off) = some r) :
    decode (writeAt off w) = r.build { dir := .wr w, off := off, size := .word } :=
  decodeBus_of_row (admitted_word _ hoff) (key_wr w off _) hr

/-- Where both values of the write bit select one row, that row decodes both directions. -/
theorem decode_accessAt {off : Offset} {d : Dir} {r : BusRow} (hoff : off.extractLsb' 0 2 = 0)
    (hr : ∀ b : BitVec 1, busRow? (b ++ off) = some r) :
    decode (accessAt off d) = r.build { dir := d, off := off, size := .word } := by
  cases d
  · exact decode_readAt hoff (hr 0)
  · exact decode_writeAt hoff (hr 1)

theorem decode_reservedOffset18 (d : Dir) (k : BitVec 1) :
    decode (accessAt ((0b0011 : BitVec 4) ++ k ++ (0 : BitVec 2)) d) = .reservedOffset18 d k := by
  have hk : ((0b0011 : BitVec 4) ++ k ++ (0 : BitVec 2)).extractLsb' 2 1 = k := by decide +revert
  rw [decode_accessAt (r := reservedRows[0]) (by decide +revert) (by intro b; fin_cases b <;> fin_cases k <;> rfl)]
  exact congrArg (Instr.reservedOffset18 d) hk

theorem decode_reservedOffset4C (d : Dir) : decode (accessAt 0x4C d) = .reservedOffset4C d :=
  decode_accessAt (r := reservedRows[1]) (by decide) (by intro b; fin_cases b <;> rfl)

theorem decode_reservedOffset50 (d : Dir) (k : BitVec 2) :
    decode (accessAt ((0b101 : BitVec 3) ++ k ++ (0 : BitVec 2)) d) = .reservedOffset50 d k := by
  have hk : ((0b101 : BitVec 3) ++ k ++ (0 : BitVec 2)).extractLsb' 2 2 = k := by decide +revert
  rw [decode_accessAt (r := reservedRows[2]) (by decide +revert) (by intro b; fin_cases b <;> fin_cases k <;> rfl)]
  exact congrArg (Instr.reservedOffset50 d) hk

theorem decode_reservedOffset60 (d : Dir) (k : BitVec 3) :
    decode (accessAt ((0b11 : BitVec 2) ++ k ++ (0 : BitVec 2)) d) = .reservedOffset60 d k := by
  have hk : ((0b11 : BitVec 2) ++ k ++ (0 : BitVec 2)).extractLsb' 2 3 = k := by decide +revert
  rw [decode_accessAt (r := reservedRows[3]) (by decide +revert) (by intro b; fin_cases b <;> fin_cases k <;> rfl)]
  exact congrArg (Instr.reservedOffset60 d) hk

/-- The 17 offsets that are not reserved (10_state.md R37). -/
def registerOffsets : List Offset :=
  [0x00, 0x04, 0x08, 0x0C, 0x10, 0x14, 0x20, 0x24, 0x28, 0x2C, 0x30, 0x34, 0x38, 0x3C, 0x40, 0x44, 0x48]

/-- An aligned offset is a register's, or lies in one of the four rows of reserved offsets. -/
theorem aligned_offset_cases : ∀ k : BitVec 5, k ++ (0 : BitVec 2) ∈ registerOffsets ∨
    (∃ j : BitVec 1, k ++ (0 : BitVec 2) = (0b0011 : BitVec 4) ++ j ++ (0 : BitVec 2)) ∨
    k ++ (0 : BitVec 2) = 0x4C ∨
    (∃ j : BitVec 2, k ++ (0 : BitVec 2) = (0b101 : BitVec 3) ++ j ++ (0 : BitVec 2)) ∨
    (∃ j : BitVec 3, k ++ (0 : BitVec 2) = (0b11 : BitVec 2) ++ j ++ (0 : BitVec 2)) := by
  decide

/-- A register's read and its write each have a row, which names the offset in full. -/
theorem roundTrips_register {off : Offset} (h : off ∈ registerOffsets) (d : Dir) : RoundTrips (accessAt off d) := by
  cases d with
  | rd =>
    change RoundTrips (readAt off)
    fin_cases h <;> rw [RoundTrips, decode_readAt rfl rfl] <;> exact ⟨rfl, rfl⟩
  | wr w =>
    change RoundTrips (writeAt off w)
    fin_cases h <;> rw [RoundTrips, decode_writeAt rfl rfl] <;> exact ⟨rfl, rfl⟩

/-- The operand of a reserved row holds the offset bits that the row's mask leaves free, so no bit is lost. -/
theorem roundTrips_aligned (d : Dir) (k : BitVec 5) : RoundTrips (accessAt (k ++ (0 : BitVec 2)) d) := by
  rcases aligned_offset_cases k with h | ⟨j, h⟩ | h | ⟨j, h⟩ | ⟨j, h⟩
  · exact roundTrips_register h d
  · rw [h, RoundTrips, decode_reservedOffset18]
    exact ⟨rfl, rfl⟩
  · rw [h, RoundTrips, decode_reservedOffset4C]
    exact ⟨rfl, rfl⟩
  · rw [h, RoundTrips, decode_reservedOffset50]
    exact ⟨rfl, rfl⟩
  · rw [h, RoundTrips, decode_reservedOffset60]
    exact ⟨rfl, rfl⟩

theorem roundTrips_bus (a : Access) : RoundTrips (.bus a) := by
  cases ha : a.admitted with
  | false =>
    rw [RoundTrips, decode, decodeBus_of_not_admitted ha]
    exact ⟨by simp [Instr.wellFormed, ha], rfl⟩
  | true =>
    obtain ⟨d, off, size⟩ := a
    obtain ⟨rfl, k, rfl⟩ := admitted_iff.1 ha
    exact roundTrips_aligned d k

/-! ### The round trips -/

/-- Settles O9: command words and bus accesses each round trip. -/
theorem encodeDecodeRoundTrip : Obligations.EncodeDecodeRoundTrip
  | .bus a => roundTrips_bus a
  | .cmd w => roundTrips_cmd w

/-- Settles O8, by the constructors of `Instr`: a register's rows by their keys, the reserved rows by their lemmas, and
the two checked rows by the check that rejects their operand. -/
theorem decodeEncodeRoundTrip : Obligations.DecodeEncodeRoundTrip := by
  intro i h
  cases i
  case crcInit p => cases p <;> rfl
  case frameClear | clearErr => rfl
  case validate v => cases v <;> rfl
  case illegalCommandWord w =>
    have hw : legal w = false := by simpa [Instr.wellFormed] using h
    exact congrArg Command.toInstr (decodeCommand_of_illegal hw)
  case nonWordOrMisaligned a => exact decodeBus_of_not_admitted (by simpa [Instr.wellFormed] using h)
  case reservedOffset18 d k => exact decode_reservedOffset18 d k
  case reservedOffset4C d => exact decode_reservedOffset4C d
  case reservedOffset50 d k => exact decode_reservedOffset50 d k
  case reservedOffset60 d k => exact decode_reservedOffset60 d k
  case rdCmd | rdStatus | rdCrcData | rdCrcValue | rdFrameData | rdFrameCount | rdKeyHi | rdKeyLo | rdOperation
      | rdAsset | rdPriceHi | rdPriceLo | rdVolumeHi | rdVolumeLo | rdExpireHi | rdExpireLo | rdChecksum =>
    rw [encode, decode_readAt rfl rfl]
    rfl
  all_goals
    rw [encode, decode_writeAt rfl rfl]
    rfl

/-- To decode is to find the one well-formed term that is encoded so. -/
theorem decode_eq_iff {o : Operation} {i : Instr} : decode o = i ↔ i.wellFormed = true ∧ encode i = o := by
  constructor
  · rintro rfl
    exact encodeDecodeRoundTrip o
  · rintro ⟨hwf, rfl⟩
    exact decodeEncodeRoundTrip i hwf

/-- Settles O11: each of the fourteen is the encoding of the well-formed term it decodes to. -/
theorem wordsWrittenOutDecode : Obligations.WordsWrittenOutDecode := by
  unfold Obligations.WordsWrittenOutDecode
  simp only [decode_eq_iff]
  decide

/-- The aligned keys are 6 free bits above two zeros. -/
theorem aligned_key_eq : ∀ k : BitVec 8, k.extractLsb' 0 2 = 0 → k = k.extractLsb' 2 6 ++ (0 : BitVec 2) := by
  decide

/-- Settles O10, by trying the 38 rows on each of the 64 keys. -/
theorem everyAlignedKeySelectsOneRow : Obligations.EveryAlignedKeySelectsOneRow := by
  have h : ∀ j : BitVec 6, (busTable.filter (·.hits (j ++ (0 : BitVec 2)))).length = 1 := by decide
  intro k hk
  rw [aligned_key_eq k hk]
  exact h _

end Sys2Proof

namespace Sys2Proof.Machine

/-! ### What a write to CMD does -/

theorem exec_wrCmd (w : Word) (s : State) : exec (.wrCmd w) s = exec (decode (.cmd w)) s :=
  (exec_resolve (.wrCmd w) s).symm

/-- A write of the word that a command is encoded as is that command. -/
theorem exec_wrCmd_of_encode {i : Instr} {w : Word} (hi : i.wellFormed = true) (hw : encode i = .cmd w) (s : State) :
    exec (.wrCmd w) s = exec i s := by
  rw [exec_wrCmd, decode_eq_iff.2 ⟨hi, hw⟩]

theorem exec_wrCmd_of_illegal {w : Word} (hw : legal w = false) (s : State) :
    exec (.wrCmd w) s = .next (raiseCmdError s) :=
  exec_wrCmd_of_encode (i := .illegalCommandWord w) (by simp [Instr.wellFormed, hw]) rfl s

/-- A legal word is one that a command with its operand is encoded as (30_encoding.md R73). -/
theorem legal_iff_mem (w : Word) :
    legal w = true ↔ w ∈ [0x00000101, 0x00000201, 0x00000002, 0x00000003, 0x00000103, 0x00000203, 0x00000004] := by
  constructor
  · intro hw
    obtain ⟨hwf, henc⟩ := roundTrips_cmd w
    rw [decode] at hwf henc
    cases hc : decodeCommand w with rw [hc] at hwf henc
    | crcInit p => cases p <;> cases henc <;> decide
    | frameClear => cases henc; decide
    | validate v => cases v <;> cases henc <;> decide
    | clearErr => cases henc; decide
    | illegal w' =>
      cases henc
      simp [Command.toInstr, Instr.wellFormed, hw] at hwf
  · intro hw
    fin_cases hw <;> decide

/-- Settles O12: an illegal word and the seven legal ones are each the encoding of their command. -/
theorem commandLegality : Obligations.CommandLegality := by
  intro w s
  refine ⟨legal_iff_mem w, fun hw => exec_wrCmd_of_illegal hw s, ?_, ?_, ?_, ?_, ?_, ?_, ?_⟩
  all_goals exact exec_wrCmd_of_encode rfl rfl s

/-- Settles O13: the CMD write is the encoding of WR_CMD, and every command ends in a next state. -/
theorem cmdWriteRunsItsCommand : Obligations.CmdWriteRunsItsCommand := by
  intro w s
  have hdec : decode (.bus (cmdWrite w)) = .wrCmd w := decode_eq_iff.2 ⟨rfl, rfl⟩
  refine ⟨hdec, exec_wrCmd w s, ?_, ?_⟩
  · rw [hdec, exec_wrCmd]
  · rw [exec_wrCmd, decode]
    cases decodeCommand w <;> exact ⟨_, rfl⟩

end Sys2Proof.Machine
end

section
/-! # The CRC generator (40_crc.md)

First what the three instructions of the generator answer, then the residue of an unreflected CRC, and last the CRC of a
stream: `CrcAdvances` says that the bytes fed between two states are all that the generator has taken in. -/

namespace Sys2Proof.Machine

/-! ### The instructions of the generator -/

theorem exec_crcInit (p : ProfileSel) (s : State) :
    exec (.crcInit p) s = .next (okay (setCrc p (profileOf s.cfg p).init s)) := rfl

theorem exec_wrCrcData (w : Word) (s : State) : exec (.wrCrcData w) s = .next (okay (feedByte (byteOperand w) s)) := rfl

theorem exec_rdCrcValue (s : State) :
    exec .rdCrcValue s = .next (answer ((crcFinal s.profile s.crcAcc).setWidth 32) s) := rfl

theorem profile_of_crcSel {s : State} {sel : ProfileSel} (h : s.crcSel = sel) : s.profile = profileOf s.cfg sel :=
  congrArg (profileOf s.cfg) h

/-- Without final reflection and exclusive-or the CRC is the register itself. -/
theorem crcFinal_eq_self {p : Profile} (hout : p.refout = false) (hxor : p.xorout = 0) (c : Half) :
    crcFinal p c = c := by
  simp [crcFinal, hout, hxor]

/-- Settles O14: CRC.INIT writes what the parameters say, which it leaves alone, so it writes the same again. -/
theorem crcInitStartsTheProfile : Obligations.CrcInitStartsTheProfile :=
  fun s => ⟨exec_crcInit .crcB s, exec_crcInit .crcC s, fun p => ⟨_, exec_crcInit p s, exec_crcInit p _⟩⟩

/-- Settles O27, by the profile that CRCSEL selects. -/
theorem crcValueReadsTheFinalisedCrc : Obligations.CrcValueReadsTheFinalisedCrc := by
  refine fun s => ⟨fun h => ?_, fun h => ?_, fun p hout hxor => crcFinal_eq_self hout hxor _⟩
  all_goals
    rw [exec_rdCrcValue, profile_of_crcSel h]
    rfl

/-- Settles O29, by the profile that CRCSEL selects; the byte operand is the word's low byte. -/
theorem feedStepsTheAccumulator : Obligations.FeedStepsTheAccumulator := by
  refine fun w s => ⟨fun h => ?_, fun h => ?_⟩
  all_goals
    rw [exec_wrCrcData, byteOperand_eq, feedByte, profile_of_crcSel h]
    rfl

/-! ### The residue -/

/-- While no 1 bit reaches bit 15, the loop only shifts. -/
theorem crcShifts_eq_shiftLeft (poly : Half) {n : Nat} {c : Half} (h : c.toNat * 2 ^ n < 2 ^ 16) :
    crcShifts poly n c = c <<< n := by
  induction n generalizing c with
  | zero => simp [crcShifts]
  | succ n ih =>
    have hpos := Nat.two_pow_pos n
    rw [Nat.pow_succ] at h
    have hlow : c.toNat < 2 ^ 15 := by nlinarith
    have hmsb : c.msb = false := BitVec.msb_eq_false_iff_two_mul_lt.2 (by omega)
    have hshift : (c <<< 1).toNat = 2 * c.toNat := by
      rw [BitVec.toNat_shiftLeft, Nat.shiftLeft_eq]
      omega
    rw [crcShifts, crcShift, hmsb, if_neg Bool.false_ne_true, ih (by rw [hshift]; linarith), ← BitVec.shiftLeft_add,
      Nat.add_comm]

theorem crcShifts_zero (poly : Half) (n : Nat) : crcShifts poly n 0#16 = 0#16 := by
  rw [crcShifts_eq_shiftLeft poly (by simp), BitVec.zero_shiftLeft]

theorem crcStep_of_unreflected {p : Profile} (hin : p.refin = false) (c : Half) (b : Byte) :
    crcStep p c b = crcShifts p.poly 8 (c ^^^ b.setWidth 16 <<< 8) := by
  simp [crcStep, crcInput, hin]

/-- Feeding a register its own high byte leaves its low byte, moved up. -/
theorem crcStep_high_byte {p : Profile} (hin : p.refin = false) (c : Half) :
    crcStep p c (c.extractLsb' 8 8) = (c.extractLsb' 0 8).setWidth 16 <<< 8 := by
  have hlow : c ^^^ (c.extractLsb' 8 8).setWidth 16 <<< 8 = (c.extractLsb' 0 8).setWidth 16 := by
    ext i hi
    simp [BitVec.getElem_shiftLeft]
    grind
  rw [crcStep_of_unreflected hin, hlow, crcShifts_eq_shiftLeft]
  have := (c.extractLsb' 0 8).isLt
  simp only [BitVec.toNat_setWidth]
  omega

/-- A byte alone in the high half of the register is cancelled by feeding it. -/
theorem crcStep_cancel {p : Profile} (hin : p.refin = false) (b : Byte) :
    crcStep p (b.setWidth 16 <<< 8) b = 0 := by
  rw [crcStep_of_unreflected hin, BitVec.xor_self]
  exact crcShifts_zero p.poly 8

/-- Settles O31: the register is the CRC, whose high byte and then low byte take it to 0. -/
theorem residueIsZero : Obligations.ResidueIsZero := by
  intro p bs hin hout hxor
  rw [crc16_append, crc16, crcFinal_eq_self hout hxor, crcFinal_eq_self hout hxor, bytes2, List.foldl_cons,
    List.foldl_cons, List.foldl_nil, crcStep_high_byte hin, crcStep_cancel hin]

/-! ### Every step answers a next state and takes one event -/

theorem exists_exec (i : Instr) (s : State) : ∃ t, exec i s = .next t := by
  cases i
  case wrCmd w =>
    obtain ⟨-, -, -, hnext⟩ := cmdWriteRunsItsCommand w s
    exact hnext
  all_goals exact ⟨_, rfl⟩

theorem exists_step (s : State) : ∃ t, step s = .next t := by
  match hp : s.pending with
  | [] => exact ⟨s, step_nil hp⟩
  | .reset :: _ => exact ⟨_, step_reset hp⟩
  | .op o :: _ =>
    rw [step_op hp]
    exact exists_exec (decode o) _

theorem step_pending {s t : State} {e : HostEvent} {rest : List HostEvent} (hp : s.pending = e :: rest)
    (h : step s = .next t) : t.pending = rest := by
  obtain ⟨htail, -⟩ := eventsAreTakenInOrder s t h
  rw [htail, hp, List.tail_cons]

/-! ### The CRC of a stream -/

/-- From `s` to `t` the generator has kept its profile and taken in exactly the bytes `bs`. -/
structure CrcAdvances (s t : State) (bs : List Byte) : Prop where
  profile_eq : t.profile = s.profile
  crcAcc_eq : t.crcAcc = bs.foldl (crcStep s.profile) s.crcAcc

theorem CrcAdvances.refl (s : State) : CrcAdvances s s [] := ⟨rfl, rfl⟩

theorem CrcAdvances.trans {s t u : State} {bs cs : List Byte} (h : CrcAdvances s t bs) (h' : CrcAdvances t u cs) :
    CrcAdvances s u (bs ++ cs) where
  profile_eq := h'.profile_eq.trans h.profile_eq
  crcAcc_eq := by rw [h'.crcAcc_eq, h.profile_eq, h.crcAcc_eq, List.foldl_append]

/-- An event that starts no CRC advances it by the byte it feeds, if it feeds one. -/
theorem crcAdvances_of_step {s t : State} {e : HostEvent} {rest : List HostEvent} (hp : s.pending = e :: rest)
    (h : step s = .next t) (hs : e.startsCrc = false) : CrcAdvances s t e.fedByte.toList := by
  obtain ⟨hsel, hquiet, hfeed⟩ := onlyCrcAccessesWriteTheCrc s t e rest hp h hs
  obtain ⟨-, hcfg⟩ := eventsAreTakenInOrder s t h
  refine ⟨by rw [State.profile, hsel, hcfg, State.profile], ?_⟩
  cases hb : e.fedByte with
  | none => exact hquiet hb
  | some b => exact hfeed b hb

/-- Events that start no CRC advance it by the bytes they feed. -/
theorem run_crcAdvances {s : State} {evs rest : List HostEvent} (hs : ∀ e ∈ evs, e.startsCrc = false)
    (hp : s.pending = evs ++ rest) :
    ∃ t, Sys2Proof.core.run evs.length s = .next t ∧ t.pending = rest ∧
      CrcAdvances s t (evs.filterMap HostEvent.fedByte) := by
  induction evs generalizing s with
  | nil => exact ⟨s, run_zero s, hp, .refl s⟩
  | cons e evs ih =>
    obtain ⟨he, hevs⟩ := List.forall_mem_cons.1 hs
    obtain ⟨u, hu⟩ := exists_step s
    obtain ⟨t, ht, htp, hadv⟩ := ih hevs (step_pending hp hu)
    refine ⟨t, (run_succ hu).trans ht, htp, ?_⟩
    have h := (crcAdvances_of_step hp hu he).trans hadv
    cases hb : e.fedByte <;> simpa [hb] using h

/-- CRC.INIT of a profile starts that profile, and reset starts CRC_B. -/
theorem step_starts_crc {s t : State} {first : HostEvent} {p : ProfileSel} {rest : List HostEvent}
    (hfirst : first.performs = some (.crcInit p) ∨ (first = .reset ∧ p = .crcB)) (hp : s.pending = first :: rest)
    (h : step s = .next t) : t.profile = profileOf s.cfg p ∧ t.crcAcc = t.profile.init := by
  have heff := step_effect hp h
  rcases hfirst with hinit | ⟨rfl, rfl⟩
  · rw [hinit] at heff
    cases heff with
    | crcInit => exact ⟨rfl, rfl⟩
    | quiet _ _ hi => cases hi
  · cases heff
    exact ⟨rfl, rfl⟩

theorem step_rdCrcValue {s : State} {rest : List HostEvent} (hp : s.pending = .op (encode .rdCrcValue) :: rest) :
    step s = .next (answer ((crcFinal s.profile s.crcAcc).setWidth 32) { s with pending := rest }) := by
  rw [step_op hp, decodeEncodeRoundTrip .rdCrcValue rfl, exec_rdCrcValue]
  rfl

/-- Settles O30: the first event starts the CRC, the others advance it by the bytes they feed, and the read
answers it. -/
theorem streamedCrcEqualsTheFunction : Obligations.StreamedCrcEqualsTheFunction := by
  intro s p first evs rest hfirst hs hp
  obtain ⟨a, ha⟩ := exists_step s
  obtain ⟨hprofile, hacc⟩ := step_starts_crc hfirst hp ha
  obtain ⟨b, hb, hbp, hadv⟩ := run_crcAdvances hs (step_pending hp ha)
  refine ⟨answer _ { b with pending := rest }, ?_, answer_response _ _⟩
  rw [crc16, ← hprofile, ← hacc, ← hadv.crcAcc_eq, ← hadv.profile_eq]
  calc Sys2Proof.core.run (evs.length + 2) s
      = Sys2Proof.core.run (evs.length + 1) a := run_succ ha
    _ = Sys2Proof.core.run 1 b := run_add hb
    _ = Sys2Proof.core.run 0 _ := run_succ (step_rdCrcValue hbp)

end Sys2Proof.Machine
end

section
/-! # The frame buffer and its counter (41_frame_buffer.md)

First what the three instructions of the frame buffer answer, then the frame that pushes build: `HoldsFrame` holds of no
bytes once FRAME.CLEAR or reset is taken, and every push appends its byte to the frame. -/

namespace Sys2Proof.Machine

/-! ### The instructions of the frame buffer -/

theorem exec_frameClear (s : State) : exec .frameClear s = .next (okay (clearFrame s)) := rfl

theorem exec_wrFrameData (w : Word) (s : State) :
    exec (.wrFrameData w) s = .next (okay (pushByte (byteOperand w) s)) := rfl

theorem exec_rdFrameCount (s : State) : exec .rdFrameCount s = .next (answer (s.fcnt.setWidth 32) s) := rfl

/-- Settles O33: the byte operand is the word's low byte, and the new buffer and counter are those of
`storeByte_getElem` and `countByte_toNat`. -/
theorem pushStoresAndCounts : Obligations.PushStoresAndCounts := by
  intro w s
  refine ⟨_, exec_wrFrameData w s, rfl, fun i hi => ?_, countByte_toNat s.fcnt⟩
  rw [← byteOperand_eq]
  exact storeByte_getElem s.fb s.fcnt (byteOperand w) i hi

/-- Settles O15: the next state is `clearFrame`, which writes FCNT alone. -/
theorem frameClearClearsTheCountAlone : Obligations.FrameClearClearsTheCountAlone := exec_frameClear

/-- Settles O28: the next state is `answer`, which writes the response alone. -/
theorem frameCountReadsTheCounter : Obligations.FrameCountReadsTheCounter := exec_rdFrameCount

/-! ### The frame that pushes build -/

/-- The bytes `bs` are all counted, with saturation, and lie in order at the start of a frame buffer that held `fb`
before them. -/
structure HoldsFrame (fb : FrameBuf) (bs : List Byte) (s : State) : Prop where
  fcnt_eq : s.fcnt.toNat = min bs.length 0xFFFF
  byte_eq : ∀ (i : Nat) (h : i < fbDepth), s.fb[i] = bs[i]?.getD fb[i]

theorem HoldsFrame.of_fcnt_zero {fb : FrameBuf} {s : State} (hfcnt : s.fcnt = 0) (hfb : s.fb = fb) :
    HoldsFrame fb [] s where
  fcnt_eq := by simp [hfcnt]
  byte_eq i hi := by simp [hfb]

/-- Which events are still to come says nothing about the frame. -/
theorem HoldsFrame.with_pending {fb : FrameBuf} {bs : List Byte} {s : State} (h : HoldsFrame fb bs s)
    (evs : List HostEvent) : HoldsFrame fb bs { s with pending := evs } := ⟨h.fcnt_eq, h.byte_eq⟩

/-- A push appends its byte to the frame: while the buffer has room, FCNT is still the exact number of bytes. -/
theorem HoldsFrame.concat {fb : FrameBuf} {bs : List Byte} {s : State} (h : HoldsFrame fb bs s) (b : Byte) :
    HoldsFrame fb (bs ++ [b]) (okay (pushByte b s)) where
  fcnt_eq := by
    rw [okay_fcnt, pushByte_fcnt, countByte_toNat, h.fcnt_eq, List.length_append, List.length_singleton]
    omega
  byte_eq i hi := by
    have hat : s.fcnt.toNat = i ↔ i = bs.length := by
      have hroom : i < 37 := hi
      rw [h.fcnt_eq]
      omega
    simp only [okay_fb, pushByte_fb, storeByte_getElem, hat, h.byte_eq i hi]
    rcases Nat.lt_trichotomy i bs.length with hlt | rfl | hgt
    · rw [if_neg hlt.ne, List.getElem?_append_left hlt]
    · rw [if_pos rfl, List.getElem?_concat_length, Option.getD_some]
    · rw [if_neg hgt.ne', List.getElem?_eq_none hgt.le, List.getElem?_eq_none (by simpa using hgt)]

/-! ### Steps and runs that build a frame -/

/-- A step that takes the encoding of a row executes that row. -/
theorem step_encode {s : State} {i : Instr} {rest : List HostEvent} (hi : i.wellFormed = true)
    (hp : s.pending = .op (encode i) :: rest) : step s = exec i { s with pending := rest } := by
  rw [step_op hp, decodeEncodeRoundTrip i hi]

theorem byteOperand_zeroExtend (b : Byte) : byteOperand (b.zeroExtend 32) = b := by
  rw [byteOperand_eq]
  exact BitVec.setWidth_setWidth_of_le b (by decide)

theorem step_push {s : State} {b : Byte} {rest : List HostEvent} (hp : s.pending = push b :: rest) :
    step s = .next (okay (pushByte b { s with pending := rest })) := by
  rw [step_encode rfl hp, exec_wrFrameData, byteOperand_zeroExtend]

/-- FRAME.CLEAR and reset both start a frame of no bytes. -/
theorem step_starts_frame {s : State} {e : HostEvent} {rest : List HostEvent}
    (he : e = .op (encode .frameClear) ∨ e = .reset) (hp : s.pending = e :: rest) :
    ∃ t, step s = .next t ∧ t.pending = rest ∧ HoldsFrame s.fb [] t := by
  rcases he with rfl | rfl
  · exact ⟨_, step_encode rfl hp, rfl, .of_fcnt_zero rfl rfl⟩
  · exact ⟨_, step_reset hp, rfl, .of_fcnt_zero rfl rfl⟩

/-- A run of pushes appends their bytes, in push order. -/
theorem run_pushes {fb : FrameBuf} {cs bs : List Byte} {s : State} {rest : List HostEvent} (h : HoldsFrame fb cs s)
    (hp : s.pending = bs.map push ++ rest) :
    ∃ t, Sys2Proof.core.run bs.length s = .next t ∧ t.pending = rest ∧ HoldsFrame fb (cs ++ bs) t := by
  induction bs generalizing s cs with
  | nil => exact ⟨s, run_zero s, hp, by rwa [List.append_nil]⟩
  | cons b bs ih =>
    have hstep := step_push hp
    obtain ⟨t, ht, htp, hframe⟩ := ih ((h.with_pending (bs.map push ++ rest)).concat b) rfl
    exact ⟨t, (run_succ hstep).trans ht, htp, by rwa [List.append_cons]⟩

/-- FRAME.CLEAR or reset, and then pushes: the frame is exactly the bytes pushed. -/
theorem run_builds_frame {s : State} {e : HostEvent} {bs : List Byte} {rest : List HostEvent}
    (he : e = .op (encode .frameClear) ∨ e = .reset) (hp : s.pending = e :: bs.map push ++ rest) :
    ∃ t, Sys2Proof.core.run (bs.length + 1) s = .next t ∧ t.pending = rest ∧ HoldsFrame s.fb bs t := by
  obtain ⟨u, hu, hup, hempty⟩ := step_starts_frame he hp
  obtain ⟨t, ht, htp, hframe⟩ := run_pushes hempty hup
  exact ⟨t, (run_succ hu).trans ht, htp, hframe⟩

/-- Settles O34: the run holds the pushed bytes over the buffer that it started from. -/
theorem frameHoldsThePushedBytes : Obligations.FrameHoldsThePushedBytes := by
  intro s e bs rest he hp
  obtain ⟨t, ht, htp, hframe⟩ := run_builds_frame he hp
  refine ⟨t, ht, hframe.fcnt_eq, fun i hi => ?_, htp⟩
  rw [hframe.byte_eq i hi]
  split
  · rename_i hlt
    rw [List.getElem?_eq_getElem hlt, Option.getD_some]
  · rename_i hge
    rw [List.getElem?_eq_none (Nat.le_of_not_lt hge), Option.getD_none]

/-! ### VALIDATE on a frame of the wrong length -/

theorem exec_validate (v : Variant) (s : State) :
    exec (.validate v) s =
      .next (okay (setOutcome (validateCode s.cfg v s.fcnt s.fb) v (validateFields s.cfg v s.fcnt s.fb) s)) := rfl

theorem validateCode_of_wrong_length {v : Variant} {n : Half} (h : n.toNat ≠ frameLen v) (cfg : Config)
    (fb : FrameBuf) : validateCode cfg v n fb = .invalidLength := if_pos h

/-- Saturation hides no wrong length, because every frame is shorter than 0xFFFF bytes. -/
theorem HoldsFrame.fcnt_eq_frameLen_iff {fb : FrameBuf} {bs : List Byte} {s : State} (h : HoldsFrame fb bs s)
    (v : Variant) : s.fcnt.toNat = frameLen v ↔ bs.length = frameLen v := by
  have hle : frameLen v ≤ 37 := frameLen_le v
  rw [h.fcnt_eq]
  omega

/-- Software's sequence ends in VALIDATE's outcome for a state that holds the pushed frame. -/
theorem run_validateSequence {s : State} {v : Variant} {bs : List Byte} (hp : s.pending = validateSequence v bs) :
    ∃ t, Sys2Proof.core.run (bs.length + 1) s = .next t ∧ HoldsFrame s.fb bs t ∧
      Sys2Proof.core.run (bs.length + 2) s = .next
        (okay (setOutcome (validateCode t.cfg v t.fcnt t.fb) v (validateFields t.cfg v t.fcnt t.fb)
          { t with pending := [] })) := by
  obtain ⟨t, ht, htp, hframe⟩ := run_builds_frame (.inl rfl) hp
  refine ⟨t, ht, hframe, ?_⟩
  calc Sys2Proof.core.run (bs.length + 2) s
      = Sys2Proof.core.run 1 t := run_add (n := 1) ht
    _ = Sys2Proof.core.run 0 _ := run_succ ((step_encode rfl htp).trans (exec_validate v _))

/-- Settles O35: FCNT at VALIDATE is not the frame length, which is the first check of all. -/
theorem wrongLengthSequencesFail : Obligations.WrongLengthSequencesFail := by
  intro s v bs hlen hp
  obtain ⟨t, -, hframe, hrun⟩ := run_validateSequence hp
  have hcode := validateCode_of_wrong_length (mt (hframe.fcnt_eq_frameLen_iff v).1 hlen) t.cfg t.fb
  have hfields : validateFields t.cfg v t.fcnt t.fb = .zero := validateFields_of_not_ok (by simp [hcode])
  exact ⟨_, hrun, hcode, rfl, hfields⟩

end Sys2Proof.Machine
end

section
/-! # VALIDATE and the result registers (42_validate.md)

A frame is the body and the checksum of its parsed fields (`frameBytes_eq_of_parse`), and a body determines the fields
that fit its variant. So the checksum check compares the parsed checksum with that of the other parsed fields
(`badChecksum_eq`), and most statements about VALIDATE speak of `parse` alone. -/

namespace Sys2Proof.Machine

/-! ### A frame as its parsed fields -/

theorem frameBytes_succ (fb : FrameBuf) (n : Nat) (h : n < fbDepth) :
    frameBytes fb (n + 1) = frameBytes fb n ++ [fb[n]] := by
  simp [frameBytes, List.take_add_one, h]

theorem frameBytes_add_two (fb : FrameBuf) (n : Nat) (h : n + 1 < fbDepth) :
    frameBytes fb (n + 2) = frameBytes fb n ++ bytes2 (be2 fb n h) := by
  rw [bytes2_be2, frameBytes_succ fb (n + 1) h, frameBytes_succ fb n (by omega), List.append_assoc]
  rfl

theorem frameBytes_add_eight (fb : FrameBuf) (n : Nat) (h : n + 7 < fbDepth) :
    frameBytes fb (n + 8) = frameBytes fb n ++ bytes8 (be8 fb n h) := by
  rw [bytes8_be8, frameBytes_succ fb (n + 7) h]
  iterate 7 rw [frameBytes_succ fb _ (by omega)]
  simp

/-- How many bytes of a frame come before its checksum. -/
def bodyLen : Variant → Nat
  | .a | .b => 26
  | .c => 35

/-- The bytes of a checksum at the end of a frame: none for variant A. -/
def checksumBytes : Variant → Half → List Byte
  | .a, _ => []
  | .b, c | .c, c => bytes2 c

theorem frameLen_eq {v : Variant} (hv : v ≠ .a) : frameLen v = bodyLen v + 2 := by
  cases v
  case a => exact absurd rfl hv
  all_goals rfl

theorem low_byte_zeroExtend (b : Byte) : (b.zeroExtend 16).extractLsb' 0 8 = b := by
  apply BitVec.eq_of_toNat_eq
  rw [BitVec.extractLsb'_toNat, Nat.shiftRight_zero, BitVec.toNat_setWidth]
  omega

/-- The bytes before the checksum are the body of the parsed fields. -/
theorem frameBytes_bodyLen (v : Variant) (fb : FrameBuf) : frameBytes fb (bodyLen v) = frameBody v (parse v fb) := by
  have hkey : frameBytes fb 8 = bytes8 (be8 fb 0) := frameBytes_add_eight fb 0 (by decide)
  have hop : frameBytes fb 9 = frameBytes fb 8 ++ [fb[8]] := frameBytes_succ fb 8 (by decide)
  cases v
  case a | b =>
    calc frameBytes fb 26
        = frameBytes fb 18 ++ bytes8 (be8 fb 18) := frameBytes_add_eight fb 18 (by decide)
      _ = frameBytes fb 10 ++ bytes8 (be8 fb 10) ++ bytes8 (be8 fb 18) := by
          rw [← frameBytes_add_eight fb 10 (by decide)]
      _ = frameBytes fb 9 ++ [fb[9]] ++ bytes8 (be8 fb 10) ++ bytes8 (be8 fb 18) := by
          rw [← frameBytes_succ fb 9 (by decide)]
      _ = _ := by rw [hop, hkey, frameBody, parse, low_byte_zeroExtend]
  case c =>
    calc frameBytes fb 35
        = frameBytes fb 27 ++ bytes8 (be8 fb 27) := frameBytes_add_eight fb 27 (by decide)
      _ = frameBytes fb 19 ++ bytes8 (be8 fb 19) ++ bytes8 (be8 fb 27) := by
          rw [← frameBytes_add_eight fb 19 (by decide)]
      _ = frameBytes fb 11 ++ bytes8 (be8 fb 11) ++ bytes8 (be8 fb 19) ++ bytes8 (be8 fb 27) := by
          rw [← frameBytes_add_eight fb 11 (by decide)]
      _ = frameBytes fb 9 ++ bytes2 (be2 fb 9) ++ bytes8 (be8 fb 11) ++ bytes8 (be8 fb 19) ++ bytes8 (be8 fb 27) := by
          rw [← frameBytes_add_two fb 9 (by decide)]
      _ = _ := by rw [hop, hkey, frameBody, parse]

theorem parse_csum (v : Variant) (fb : FrameBuf) : (parse v fb).csum = checksumField fb v := by cases v <;> rfl

/-- A frame is the body and the checksum of its parsed fields. -/
theorem frameBytes_eq_of_parse (v : Variant) (fb : FrameBuf) :
    frameBytes fb (frameLen v) = frameBody v (parse v fb) ++ checksumBytes v (parse v fb).csum := by
  rw [← frameBytes_bodyLen]
  cases v with
  | a => exact (List.append_nil _).symm
  | b => exact frameBytes_add_two fb 26 (by decide)
  | c => exact frameBytes_add_two fb 35 (by decide)

theorem buildFrame_eq (cfg : Config) (v : Variant) (f : Fields) :
    buildFrame cfg v f = frameBody v f ++ checksumBytes v (frameChecksum cfg v f) := by
  cases v
  case a => exact (List.append_nil _).symm
  all_goals rfl

theorem frameBody_length (v : Variant) (f : Fields) : (frameBody v f).length = bodyLen v := by cases v <;> rfl

theorem buildFrame_length (cfg : Config) (v : Variant) (f : Fields) :
    (buildFrame cfg v f).length = frameLen v := by
  cases v <;> rfl

/-- Where the checksum starts depends on the variant alone, so a frame splits in one way. -/
theorem parse_of_frame {v : Variant} {fb : FrameBuf} {body : List Byte} {c : Half}
    (h : frameBytes fb (frameLen v) = body ++ checksumBytes v c) :
    frameBody v (parse v fb) = body ∧ checksumBytes v (parse v fb).csum = checksumBytes v c := by
  rw [frameBytes_eq_of_parse] at h
  exact List.append_inj' h (by cases v <;> rfl)

/-! ### Fields that fit a variant -/

/-- The layout of the variant can carry the fields: Asset is one byte in A and B, and Expire is C's (R152). -/
structure Fields.Fits (v : Variant) (f : Fields) : Prop where
  asset_fit : v ≠ .c → f.asset ≤ 0xFF
  no_expire : v ≠ .c → f.expire = 0

theorem Fields.Valid.fits {cfg : Config} {v : Variant} {f : Fields} (h : f.Valid cfg v) : f.Fits v :=
  ⟨h.asset_fit, h.no_expire⟩

theorem zeroExtend_byte_le (b : Byte) : b.zeroExtend 16 ≤ 0xFF := by
  have := b.isLt
  bv_omega

theorem parse_fits (v : Variant) (fb : FrameBuf) : (parse v fb).Fits v := by
  cases v
  case a | b => exact ⟨fun _ => zeroExtend_byte_le _, fun _ => rfl⟩
  case c => exact ⟨fun h => absurd rfl h, fun h => absurd rfl h⟩

/-- Neighbouring parts of a word determine the part that they make up. -/
theorem extractLsb'_eq_of_parts {w i m n : Nat} {x y : BitVec w} (hlow : x.extractLsb' i m = y.extractLsb' i m)
    (hhigh : x.extractLsb' (i + m) n = y.extractLsb' (i + m) n) :
    x.extractLsb' i (n + m) = y.extractLsb' i (n + m) := by
  rw [← BitVec.extractLsb'_append_extractLsb'_eq_extractLsb' rfl, hlow, hhigh,
    BitVec.extractLsb'_append_extractLsb'_eq_extractLsb' rfl]

theorem bytes8_injective {x y : DWord} (h : bytes8 x = bytes8 y) : x = y := by
  simp only [bytes8, List.cons.injEq, and_true] at h
  obtain ⟨h7, h6, h5, h4, h3, h2, h1, h0⟩ := h
  have hall : x.extractLsb' 0 64 = y.extractLsb' 0 64 :=
    extractLsb'_eq_of_parts h0 <| extractLsb'_eq_of_parts h1 <| extractLsb'_eq_of_parts h2 <|
      extractLsb'_eq_of_parts h3 <| extractLsb'_eq_of_parts h4 <| extractLsb'_eq_of_parts h5 <|
      extractLsb'_eq_of_parts h6 h7
  rwa [BitVec.extractLsb'_eq_self, BitVec.extractLsb'_eq_self] at hall

theorem eq_of_low_byte {x y : Half} (hx : x ≤ 0xFF) (hy : y ≤ 0xFF)
    (h : x.extractLsb' 0 8 = y.extractLsb' 0 8) : x = y := by
  have h' := congrArg BitVec.toNat h
  simp only [BitVec.extractLsb'_toNat, Nat.shiftRight_zero] at h'
  bv_omega

theorem bytes8_length (x : DWord) : (bytes8 x).length = 8 := rfl

theorem append_bytes8_inj {xs ys : List Byte} {x y : DWord} (h : xs ++ bytes8 x = ys ++ bytes8 y) :
    xs = ys ∧ x = y := by
  obtain ⟨hinit, hlast⟩ := List.append_inj' h ((bytes8_length x).trans (bytes8_length y).symm)
  exact ⟨hinit, bytes8_injective hlast⟩

theorem append_bytes2_inj {xs ys : List Byte} {x y : Half} (h : xs ++ bytes2 x = ys ++ bytes2 y) :
    xs = ys ∧ x = y := by
  obtain ⟨hinit, hlast⟩ := List.append_inj' h rfl
  exact ⟨hinit, bytes2_injective hlast⟩

theorem append_byte_inj {xs ys : List Byte} {x y : Byte} (h : xs ++ [x] = ys ++ [y]) : xs = ys ∧ x = y := by
  simpa using h

/-- A body determines every field that the variant carries: it is taken apart from its last field on. -/
theorem fields_eq_of_frameBody {v : Variant} {f g : Fields} (hf : f.Fits v) (hg : g.Fits v)
    (h : frameBody v f = frameBody v g) (hcsum : f.csum = g.csum) : f = g := by
  suffices hfields : f.key = g.key ∧ f.op = g.op ∧ f.asset = g.asset ∧ f.price = g.price ∧ f.volume = g.volume ∧
      f.expire = g.expire by
    cases f
    cases g
    simp_all
  cases v
  case a | b =>
    simp only [frameBody] at h
    obtain ⟨h, hvolume⟩ := append_bytes8_inj h
    obtain ⟨h, hprice⟩ := append_bytes8_inj h
    obtain ⟨h, hasset⟩ := append_byte_inj h
    obtain ⟨hkey, hop⟩ := append_byte_inj h
    refine ⟨bytes8_injective hkey, hop, ?_, hprice, hvolume, ?_⟩
    · exact eq_of_low_byte (hf.asset_fit (by decide)) (hg.asset_fit (by decide)) hasset
    · rw [hf.no_expire (by decide), hg.no_expire (by decide)]
  case c =>
    simp only [frameBody] at h
    obtain ⟨h, hexpire⟩ := append_bytes8_inj h
    obtain ⟨h, hvolume⟩ := append_bytes8_inj h
    obtain ⟨h, hprice⟩ := append_bytes8_inj h
    obtain ⟨h, hasset⟩ := append_bytes2_inj h
    obtain ⟨hkey, hop⟩ := append_byte_inj h
    exact ⟨bytes8_injective hkey, hop, hasset, hprice, hvolume, hexpire⟩

/-! ### The checks on the parsed fields -/

/-- The checksum of a frame is checked against the checksum that its other fields call for. -/
theorem badChecksum_eq (cfg : Config) (v : Variant) (fb : FrameBuf) :
    badChecksum cfg v fb = ((parse v fb).csum != frameChecksum cfg v (parse v fb)) := by
  rw [parse_csum]
  cases v with
  | a => rfl
  | b =>
    rw [frameChecksum, ← frameBytes_bodyLen]
    rfl
  | c =>
    rw [frameChecksum, ← frameBytes_bodyLen]
    rfl

theorem badOp_iff {op : Byte} : badOp op = true ↔ 127 < op.toNat := by
  simp [badOp, opMax, BitVec.lt_def]

theorem badExpire_iff {e : DWord} : badExpire e = true ↔ e.toNat < 946684800 := by
  simp [badExpire, expireMin, BitVec.lt_def]

/-- Fields are valid exactly when they fit the variant and pass its checks. -/
theorem valid_iff {cfg : Config} {v : Variant} {f : Fields} :
    f.Valid cfg v ↔ f.Fits v ∧ checkFields cfg v f = .ok := by
  have hop : badOp f.op = false ↔ f.op ≤ opMax := by
    rw [← Bool.not_eq_true, badOp_iff, BitVec.le_def]
    exact Nat.not_lt
  have hexpire : badExpire f.expire = false ↔ expireMin ≤ f.expire := by
    rw [← Bool.not_eq_true, badExpire_iff, BitVec.le_def]
    exact Nat.not_lt
  rw [checkFields_eq_ok, hop, hexpire]
  constructor
  · exact fun h => ⟨h.fits, h.price_ok, h.volume_ok, h.op_ok, h.expire_ok⟩
  · rintro ⟨hfits, hprice, hvolume, hop, hexpire⟩
    exact ⟨hprice, hvolume, hop, hfits.asset_fit, hfits.no_expire, hexpire⟩

/-- VALIDATE succeeds exactly on a frame of the right length whose parsed fields are a valid packet with its own
checksum. -/
theorem validateCode_eq_ok_iff {cfg : Config} {v : Variant} {n : Half} {fb : FrameBuf} :
    validateCode cfg v n fb = .ok ↔
      n.toNat = frameLen v ∧ (parse v fb).csum = frameChecksum cfg v (parse v fb) ∧ (parse v fb).Valid cfg v := by
  rw [validateCode_eq_ok, badChecksum_eq, bne_eq_false_iff_eq, valid_iff, and_iff_right (parse_fits v fb)]

/-! ### The invariant of the result registers -/

/-- The invariant is about RESULT, RVAR, the result registers and the parameters alone. -/
theorem State.Consistent.congr {s t : State} (h : s.Consistent) (hresult : t.result = s.result)
    (hrvar : t.rvar = s.rvar) (hres : t.res = s.res) (hcfg : t.cfg = s.cfg) : t.Consistent := by
  obtain ⟨hzero, hnone, hvalid, hsum⟩ := h
  constructor
  all_goals
    rw [hresult]
    simpa only [hrvar, hres, hcfg]

theorem platformReset_consistent (s : State) : (platformReset s).Consistent :=
  (afterReset_consistent s.cfg s.fb).congr rfl rfl rfl rfl

/-- A completed VALIDATE establishes the invariant, whatever held before. -/
theorem validated_consistent (v : Variant) (s : State) :
    (okay (setOutcome (validateCode s.cfg v s.fcnt s.fb) v (validateFields s.cfg v s.fcnt s.fb) s)).Consistent := by
  constructor
  case zero_unless_ok => exact fun h => validateFields_of_not_ok h
  case no_result_rvar => exact fun h => absurd h (validateCode_ne_noResult _ _ _ _)
  all_goals
    intro h
    replace h : validateCode s.cfg v s.fcnt s.fb = .ok := h
    obtain ⟨-, hsum, hvalid⟩ := validateCode_eq_ok_iff.1 h
    simpa only [okay_res, setOutcome_res, validateFields_of_ok h]

/-- Reset and VALIDATE establish the invariant, and no other row writes what it speaks of. -/
theorem Effect.consistent {s t : State} {p : Option Instr} (h : Effect s p t) (hs : s.Consistent) : t.Consistent := by
  cases h
  case reset => exact platformReset_consistent s
  case validate v => exact validated_consistent v s
  all_goals exact hs.congr rfl rfl rfl rfl

/-- Settles O3: with nothing pending the state stays, and otherwise the step has the effect of a row. -/
theorem stepKeepsResultRegistersConsistent : Obligations.StepKeepsResultRegistersConsistent := by
  intro s t hs h
  cases hp : s.pending with
  | nil =>
    rw [step_nil hp] at h
    cases h
    exact hs
  | cons e rest => exact (step_effect hp h).consistent (hs.congr rfl rfl rfl rfl)

/-! ### A built frame that is validated -/

/-- A frame that fits in the buffer is the buffer's first bytes. -/
theorem HoldsFrame.frameBytes_eq {fb : FrameBuf} {bs : List Byte} {s : State} (h : HoldsFrame fb bs s)
    (hlen : bs.length ≤ fbDepth) : frameBytes s.fb bs.length = bs := by
  apply List.ext_getElem?
  intro i
  by_cases hi : i < bs.length
  · rw [frameBytes_getElem? _ _ _ (by omega) hi, h.byte_eq, List.getElem?_eq_getElem hi, Option.getD_some]
  · rw [List.getElem?_eq_none (Nat.le_of_not_lt hi), List.getElem?_eq_none]
    rw [frameBytes_length hlen]
    exact Nat.le_of_not_lt hi

theorem checksumBytes_eq {v : Variant} (hv : v ≠ .a) (c : Half) : checksumBytes v c = bytes2 c := by
  cases v
  case a => exact absurd rfl hv
  all_goals rfl

theorem checksumBytes_injective {v : Variant} (hv : v ≠ .a) {c d : Half} (h : checksumBytes v c = checksumBytes v d) :
    c = d := by
  rw [checksumBytes_eq hv, checksumBytes_eq hv] at h
  exact bytes2_injective h

/-- The fields parsed from a built frame are the ones it was built from. -/
theorem parse_of_buildFrame {cfg : Config} {v : Variant} {f : Fields} {fb : FrameBuf} (hf : f.Fits v)
    (hcsum : f.csum = frameChecksum cfg v f) (h : frameBytes fb (frameLen v) = buildFrame cfg v f) :
    parse v fb = f := by
  rw [buildFrame_eq, ← hcsum] at h
  obtain ⟨hbody, hbytes⟩ := parse_of_frame h
  refine fields_eq_of_frameBody (parse_fits v fb) hf hbody ?_
  by_cases hv : v = .a
  · subst hv
    exact hcsum.symm
  · exact checksumBytes_injective hv hbytes

/-- No step changes the parameters, so no run does. -/
theorem run_cfg {n : Nat} {s t : State} (h : Sys2Proof.core.run n s = .next t) : t.cfg = s.cfg := by
  induction n generalizing s with
  | zero =>
    cases h
    rfl
  | succ n ih =>
    obtain ⟨u, hu⟩ := exists_step s
    obtain ⟨-, hcfg⟩ := eventsAreTakenInOrder s u hu
    rw [run_succ hu] at h
    exact (ih h).trans hcfg

/-- Settles O36: the buffer holds the built frame at VALIDATE, so the parsed fields are the valid ones it was built
from. -/
theorem packetRoundTrip : Obligations.PacketRoundTrip := by
  intro s v f hvalid hcsum hp
  have hlen := buildFrame_length s.cfg v f
  obtain ⟨t, ht, hframe, hrun⟩ := run_validateSequence hp
  rw [hlen] at hrun
  have hcfg := run_cfg ht
  have hbytes := hframe.frameBytes_eq (hlen ▸ frameLen_le v)
  rw [hlen] at hbytes
  have hparse := parse_of_buildFrame hvalid.fits hcsum hbytes
  have hok : validateCode t.cfg v t.fcnt t.fb = .ok := by
    rw [validateCode_eq_ok_iff, hframe.fcnt_eq_frameLen_iff, hparse, hcfg]
    exact ⟨hlen, hcsum, hvalid⟩
  exact ⟨_, hrun, hok, rfl, (validateFields_of_ok hok).trans hparse⟩

/-! ### A built frame with one bit flipped -/

theorem flipBit_append (i : Nat) (j : Fin 8) (as bs : List Byte) :
    flipBit i j (as ++ bs) =
      if i < as.length then flipBit i j as ++ bs else as ++ flipBit (i - as.length) j bs := by
  induction as generalizing i with
  | nil => simp
  | cons a as ih =>
    cases i with
    | zero => simp [flipBit]
    | succ i =>
      have h := ih i
      simp only [flipBit, List.cons_append, List.modify_succ_cons, List.length_cons, Nat.add_lt_add_iff_right,
        Nat.add_sub_add_right] at h ⊢
      rw [h]
      split <;> rfl

theorem crcInput_bit (p : Profile) (j : Fin 8) :
    ∃ k < 16, (crcInput p (1#8 <<< j.val)).zeroExtend 16 <<< 8 = 1#16 <<< k := by
  unfold crcInput
  split
  · exact ⟨15 - j.val, by omega, by decide +revert⟩
  · exact ⟨8 + j.val, by omega, by decide +revert⟩

/-- One flipped bit is one bit of difference in the register, which never shifts away (R185). -/
theorem crc16_flipBit_ne {p : Profile} (hp : p.poly ≠ 0) {i : Nat} (j : Fin 8) {bs : List Byte} (hi : i < bs.length) :
    crc16 p (flipBit i j bs) ≠ crc16 p bs := by
  obtain ⟨as, b, cs, rfl, -, hflip⟩ := List.exists_of_modify (fun b => b ^^^ (1#8 <<< j.val)) hi
  obtain ⟨k, hk, hbit⟩ := crcInput_bit p j
  intro h
  have hreg := crcFinal_injective h
  rw [flipBit, hflip, List.foldl_append, List.foldl_append, List.foldl_cons, List.foldl_cons] at hreg
  have hstep := crcStep_xor p (as.foldl (crcStep p) p.init) 0#16 b (1#8 <<< j.val)
  rw [BitVec.xor_zero, BitVec.zero_xor, hbit] at hstep
  rw [hstep, foldl_crcStep_xor, ← crcShifts_add, xor_left_eq_self_iff] at hreg
  exact crcShifts_bit_ne_zero p.poly hp _ k hk hreg

/-- A list with a bit flipped is another list, as it has another CRC. -/
theorem flipBit_ne {i : Nat} (j : Fin 8) {bs : List Byte} (hi : i < bs.length) : flipBit i j bs ≠ bs := fun h =>
  crc16_flipBit_ne (p := .ccittFalse) (by decide) j hi (congrArg _ h)

/-- Two bytes with a bit flipped are those of another 16-bit value. -/
theorem exists_flipBit_bytes2 {i : Nat} (j : Fin 8) (c : Half) (hi : i < 2) :
    ∃ d, flipBit i j (bytes2 c) = bytes2 d ∧ d ≠ c := by
  have hlen : (flipBit i j (bytes2 c)).length = 2 := List.length_modify ..
  obtain ⟨x, y, hxy⟩ := List.length_eq_two.1 hlen
  have hbytes : bytes2 (x ++ y) = [x, y] := by
    rw [bytes2, BitVec.extractLsb'_append_eq_left, BitVec.extractLsb'_append_eq_right]
  refine ⟨x ++ y, hxy.trans hbytes.symm, fun h => flipBit_ne j (bs := bytes2 c) hi ?_⟩
  rw [hxy, ← hbytes, h]

theorem exists_checksumProfile {cfg : Config} {v : Variant} (hpoly : cfg.PolysNonzero) (hv : v ≠ .a) :
    ∃ p, checksumProfile cfg v = some p ∧ p.poly ≠ 0 := by
  obtain ⟨hb, hc⟩ := hpoly
  cases v
  case a => exact absurd rfl hv
  case b => exact ⟨_, rfl, hb⟩
  case c => exact ⟨_, rfl, hc⟩

theorem frameChecksum_of_profile {cfg : Config} {v : Variant} {p : Profile} (hp : checksumProfile cfg v = some p)
    (f : Fields) : frameChecksum cfg v f = crc16 p (frameBody v f) := by
  simp [frameChecksum, hp]

/-- A flip in the body keeps the checksum and changes the CRC; a flip in the checksum keeps the body, and so the
CRC. -/
theorem badChecksum_of_flipBit {cfg : Config} {v : Variant} {f : Fields} {i : Nat} {j : Fin 8} {fb : FrameBuf}
    (hpoly : cfg.PolysNonzero) (hv : v ≠ .a) (hi : i < frameLen v)
    (h : frameBytes fb (frameLen v) = flipBit i j (buildFrame cfg v f)) : badChecksum cfg v fb = true := by
  obtain ⟨p, hp, hp0⟩ := exists_checksumProfile hpoly hv
  rw [buildFrame_eq, frameChecksum_of_profile hp, flipBit_append] at h
  rw [badChecksum_eq, frameChecksum_of_profile hp, bne_iff_ne]
  split at h
  · rename_i hbody
    obtain ⟨hbody', hsum'⟩ := parse_of_frame h
    rw [hbody', checksumBytes_injective hv hsum']
    exact (crc16_flipBit_ne hp0 j hbody).symm
  · rename_i hbody
    rw [frameBody_length, Nat.not_lt] at hbody
    have hlen := frameLen_eq hv
    obtain ⟨d, hd, hne⟩ := exists_flipBit_bytes2 (i := i - bodyLen v) j (crc16 p (frameBody v f)) (by omega)
    rw [checksumBytes_eq hv, frameBody_length, hd, ← checksumBytes_eq hv] at h
    obtain ⟨hbody', hsum'⟩ := parse_of_frame h
    rwa [hbody', checksumBytes_injective hv hsum']

theorem validateCode_of_badChecksum {cfg : Config} {v : Variant} {n : Half} {fb : FrameBuf} (hn : n.toNat = frameLen v)
    (h : badChecksum cfg v fb = true) : validateCode cfg v n fb = .checksumMismatch := by
  rw [validateCode, if_neg (not_not_intro hn), if_pos h]

/-- Settles O32: the length is right, and the flip fails the checksum check. -/
theorem singleBitFlipsAreDetected : Obligations.SingleBitFlipsAreDetected := by
  intro v f i j s hpoly hv hi hlen h
  exact ⟨_, exec_validate v s, validateCode_of_badChecksum hlen (badChecksum_of_flipBit hpoly hv hi h)⟩

/-! ### The result code, check by check -/

/-- Only the length check answers InvalidLength. -/
theorem validateCode_eq_invalidLength {cfg : Config} {v : Variant} {n : Half} {fb : FrameBuf} :
    validateCode cfg v n fb = .invalidLength ↔ n.toNat ≠ frameLen v := by
  unfold validateCode checkFields
  split_ifs <;> simp_all

/-- Only the checksum check answers ChecksumMismatch, and it comes right after the length check. -/
theorem validateCode_eq_checksumMismatch {cfg : Config} {v : Variant} {n : Half} {fb : FrameBuf} :
    validateCode cfg v n fb = .checksumMismatch ↔ n.toNat = frameLen v ∧ badChecksum cfg v fb = true := by
  unfold validateCode checkFields
  split_ifs <;> simp_all

/-- Settles O38: the length check comes first and no later check has its code. -/
theorem invalidLengthExactlyWhen : Obligations.InvalidLengthExactlyWhen := by
  intro v s
  refine ⟨_, exec_validate v s, ?_, fun h => ?_⟩
  · rw [okay_result, setOutcome_result, validateCode_eq_invalidLength]
    cases v <;> rfl
  · have hle : frameLen v ≤ 37 := frameLen_le v
    exact validateCode_eq_invalidLength.2 (by omega)

/-- Settles O40: `validateFields` is `parse` or all zeros. -/
theorem failedValidateShowsNoField : Obligations.FailedValidateShowsNoField := by
  intro v s
  refine ⟨_, exec_validate v s, validateCode_ne_noResult _ _ _ _, fun h => ?_, fun h => validateFields_of_ok h⟩
  rw [okay_res, setOutcome_res, validateFields_of_not_ok h]
  exact ⟨rfl, rfl, rfl, rfl, rfl, rfl, rfl⟩

/-! ### Fields as numbers of the frame -/

theorem slice_frameBytes (fb : FrameBuf) {i n len : Nat} (h : i + n ≤ len) :
    slice i n (frameBytes fb len) = slice i n fb.toList := by
  rw [slice, frameBytes, List.drop_take, List.take_take, Nat.min_eq_left (by omega), slice]

theorem beNat_slice_one (fb : FrameBuf) (i : Nat) (h : i < fbDepth) : beNat (slice i 1 fb.toList) = fb[i].toNat := by
  rw [toList_eq_frameBytes, slice_succ fb fbDepth i 0 le_rfl h, slice_zero]
  simp [beNat]

theorem beNat_slice_two (fb : FrameBuf) (i : Nat) (h : i + 1 < fbDepth) :
    beNat (slice i 2 fb.toList) = (be2 fb i h).toNat := by
  rw [be2_toNat, toList_eq_frameBytes, slice_succ fb fbDepth i 1 le_rfl (by omega),
    slice_succ fb fbDepth (i + 1) 0 le_rfl h, slice_zero]

theorem beNat_slice_eight (fb : FrameBuf) (i : Nat) (h : i + 7 < fbDepth) :
    beNat (slice i 8 fb.toList) = (be8 fb i h).toNat := by
  rw [slice_eight fb i h, beNat_bytes8_be8]

/-- The checksum check on the bytes of the frame buffer. -/
theorem badChecksum_iff {cfg : Config} {v : Variant} {p : Profile} {fb : FrameBuf}
    (hp : checksumProfile cfg v = some p) : badChecksum cfg v fb = true ↔
      beNat (slice (bodyLen v) 2 fb.toList) ≠ (crc16 p (fb.toList.take (bodyLen v))).toNat := by
  cases v
  case a => cases hp
  all_goals
    cases hp
    rw [bodyLen, beNat_slice_two fb _ (by decide), ne_eq, BitVec.toNat_inj]
    exact bne_iff_ne

/-- Settles O39: the checksum check comes second, and no other check has its code. -/
theorem checksumMismatchExactlyWhen : Obligations.ChecksumMismatchExactlyWhen := by
  intro v s
  refine ⟨_, exec_validate v s, ?_⟩
  rw [okay_result, setOutcome_result, validateCode_eq_checksumMismatch]
  cases v with
  | a => simp [badChecksum, checksumProfile]
  | b => simp [badChecksum_iff (cfg := s.cfg) (v := .b) rfl, frameLen, bodyLen]
  | c => simp [badChecksum_iff (cfg := s.cfg) (v := .c) rfl, frameLen, bodyLen]

theorem beNat_drop_frameBytes (fb : FrameBuf) {v : Variant} (hv : v ≠ .a) :
    beNat ((frameBytes fb (frameLen v)).drop (frameLen v - 2)) = beNat (slice (bodyLen v) 2 fb.toList) := by
  have hlen := frameLen_eq hv
  rw [drop_eq_slice fb _ (frameLen_le v) (by omega), slice_frameBytes fb (by omega), hlen, Nat.add_sub_cancel]

section
variable (v : Variant) (fb : FrameBuf)

theorem parse_key_toNat : (parse v fb).key.toNat = beNat (slice 0 8 (frameBytes fb (frameLen v))) := by
  rw [slice_frameBytes fb (by cases v <;> decide), beNat_slice_eight fb 0 (by decide), parse_key]

theorem parse_op_toNat : (parse v fb).op.toNat = beNat (slice 8 1 (frameBytes fb (frameLen v))) := by
  rw [slice_frameBytes fb (by cases v <;> decide), beNat_slice_one fb 8 (by decide)]
  cases v <;> rfl

theorem parse_asset_toNat :
    (parse v fb).asset.toNat = beNat (slice 9 (if v = .c then 2 else 1) (frameBytes fb (frameLen v))) := by
  rw [slice_frameBytes fb (by cases v <;> decide)]
  cases v
  case a | b =>
    rw [if_neg (by decide), beNat_slice_one fb 9 (by decide)]
    exact BitVec.toNat_setWidth_of_le (by decide)
  case c =>
    rw [if_pos rfl, beNat_slice_two fb 9 (by decide)]
    rfl

theorem parse_price_toNat :
    (parse v fb).price.toNat = beNat (slice (if v = .c then 11 else 10) 8 (frameBytes fb (frameLen v))) := by
  rw [slice_frameBytes fb (by cases v <;> decide), beNat_slice_eight fb _ (by cases v <;> decide), parse_price]

theorem parse_volume_toNat :
    (parse v fb).volume.toNat = beNat (slice (if v = .c then 19 else 18) 8 (frameBytes fb (frameLen v))) := by
  rw [slice_frameBytes fb (by cases v <;> decide), beNat_slice_eight fb _ (by cases v <;> decide), parse_volume]

theorem parse_expire_toNat :
    (parse v fb).expire.toNat = if v = .c then beNat (slice 27 8 (frameBytes fb (frameLen v))) else 0 := by
  cases v
  case a | b => rfl
  case c => rw [if_pos rfl, slice_frameBytes fb (by decide), beNat_slice_eight fb 27 (by decide), parse_expire_c]

theorem parse_csum_toNat :
    (parse v fb).csum.toNat =
      if v = .a then 0 else beNat ((frameBytes fb (frameLen v)).drop (frameLen v - 2)) := by
  cases v
  case a => rfl
  all_goals
    rw [if_neg (by decide), beNat_drop_frameBytes fb (by decide), bodyLen, beNat_slice_two fb _ (by decide)]
    rfl

theorem badChecksum_iff_frame (cfg : Config) :
    badChecksum cfg v fb = true ↔ v ≠ .a ∧ beNat ((frameBytes fb (frameLen v)).drop (frameLen v - 2)) ≠
      (crc16 (if v = .b then cfg.crcB else cfg.crcC) ((frameBytes fb (frameLen v)).take (frameLen v - 2))).toNat := by
  by_cases hv : v = .a
  · subst hv
    simp [badChecksum, checksumProfile]
  · have hp : checksumProfile cfg v = some (if v = .b then cfg.crcB else cfg.crcC) := by
      cases v
      case a => exact absurd rfl hv
      all_goals rfl
    rw [badChecksum_iff hp, and_iff_right hv, beNat_drop_frameBytes fb hv,
      take_frameBytes fb _ _ (Nat.sub_le _ _), frameLen_eq hv, Nat.add_sub_cancel, frameBytes]

end

/-- Settles O37: each check of `validateCode`, in its order, speaks of the numbers that the frame's bytes spell. -/
theorem validateIsTheOrderedDecode : Obligations.ValidateIsTheOrderedDecode := by
  intro v s
  refine ⟨_, exec_validate v s, rfl, ?_, fun h => validateFields_of_not_ok h, fun h => ?_⟩
  · refine if_congr Iff.rfl rfl (if_congr ?_ rfl (if_congr ?_ rfl (if_congr ?_ rfl (if_congr ?_ rfl rfl))))
    · exact badChecksum_iff_frame v s.fb s.cfg
    · rw [← parse_price_toNat, ← parse_volume_toNat, BitVec.ofNat_toNat, BitVec.ofNat_toNat, BitVec.setWidth_eq,
        BitVec.setWidth_eq]
      exact Bool.or_eq_true_iff
    · rw [← parse_op_toNat]
      exact badOp_iff
    · rw [Bool.and_eq_true, decide_eq_true_iff, badExpire_iff, parse_expire_toNat]
      exact and_congr_right fun hv => by rw [if_pos hv]
  · rw [okay_res, setOutcome_res, validateFields_of_ok h]
    exact ⟨parse_key_toNat v s.fb, parse_op_toNat v s.fb, parse_asset_toNat v s.fb, parse_price_toNat v s.fb,
      parse_volume_toNat v s.fb, parse_expire_toNat v s.fb, parse_csum_toNat v s.fb⟩

/-! ### The predicates on field values -/

theorem isNaN_iff {x : DWord} : isNaN x = true ↔ x.extractLsb' 52 11 = 0x7FF ∧ x.extractLsb' 0 52 ≠ 0 := by
  simp [isNaN]

theorem isNeg_iff {x : DWord} : isNeg x = true ↔ x.msb = true ∧ x.extractLsb' 0 63 ≠ 0 ∧ isNaN x = false := by
  simp [isNeg, and_assoc]

/-- Everything but the sign is the exponent above the fraction. -/
theorem magnitude_toNat (x : DWord) :
    (x.extractLsb' 0 63).toNat = 2 ^ 52 * (x.extractLsb' 52 11).toNat + (x.extractLsb' 0 52).toNat := by
  simp only [BitVec.extractLsb'_toNat, Nat.shiftRight_eq_div_pow]
  omega

theorem magnitude_ne_zero_iff {x : DWord} :
    x.extractLsb' 0 63 ≠ 0 ↔ (x.extractLsb' 52 11).toNat ≠ 0 ∨ (x.extractLsb' 0 52).toNat ≠ 0 := by
  have h := magnitude_toNat x
  rw [Ne, ← BitVec.toNat_inj, BitVec.ofNat_eq_ofNat, BitVec.toNat_zero]
  omega

/-- A finite pattern stands for a number below 0 when its sign is 1 and the rest of it is not 0, so -0.0 does not. -/
theorem finiteUnits_neg_iff {x : DWord} : finiteUnits x < 0 ↔ x.msb = true ∧ x.extractLsb' 0 63 ≠ 0 := by
  rw [magnitude_ne_zero_iff, finiteUnits]
  generalize (x.extractLsb' 52 11).toNat = e
  generalize (x.extractLsb' 0 52).toNat = m
  have hunits : (if e = 0 then m else (2 ^ 52 + m) * 2 ^ (e - 1)) ≠ 0 ↔ e ≠ 0 ∨ m ≠ 0 := by
    split <;> simp_all
  rw [← hunits]
  generalize (if e = 0 then m else (2 ^ 52 + m) * 2 ^ (e - 1)) = u
  cases x.msb with
  | false => simp
  | true => simp [Nat.pos_iff_ne_zero]

/-- With the exponent of NaN and infinity the fraction decides, and otherwise the finite value does. -/
theorem isNeg_iff_ieeeLtZero {x : DWord} : isNeg x = true ↔ ieeeLtZero x := by
  rw [isNeg_iff, ← Bool.not_eq_true, isNaN_iff, ieeeLtZero]
  split
  · rename_i he
    have hmag : x.extractLsb' 0 63 ≠ 0 := magnitude_ne_zero_iff.2 (.inl (by rw [he]; decide))
    rw [and_iff_right hmag, not_and, not_not, and_comm]
    exact and_congr_left' (forall_prop_of_true he)
  · rename_i he
    rw [finiteUnits_neg_iff]
    exact and_congr_right' (and_iff_left fun ⟨hexp, _⟩ => he hexp)

theorem negAmount_false {x : DWord} : negAmount false x = true ↔ isNeg x = true := by
  simp [negAmount]

theorem negAmount_true {x : DWord} : negAmount true x = true ↔ isNeg x = true ∨ isNaN x = true := by
  simp [negAmount]

/-- Settles O41: `isNeg_iff_ieeeLtZero` for every pattern, and the eight rows of the table by evaluation. -/
theorem negativeAmountIsIeeeLess : Obligations.NegativeAmountIsIeeeLess :=
  ⟨fun _ => ⟨isNaN_iff, isNeg_iff, isNeg_iff_ieeeLtZero, negAmount_false, negAmount_true⟩,
    fun r hr => by fin_cases hr <;> exact ⟨rfl, rfl⟩⟩

theorem badOp_eq_msb (op : Byte) : badOp op = op.msb := by
  rw [Bool.eq_iff_iff, badOp_iff, BitVec.msb_eq_true_iff_two_mul_ge]
  omega

theorem negAmount_of_positive {x : DWord} (hsign : x.msb = false) (hnan : isNaN x = false) (r : Bool) :
    negAmount r x = false := by
  simp [negAmount, isNeg, hsign, hnan]

/-- Settles O42: each predicate is its bound, and `checkFields` reads no other field than those it compares. -/
theorem rangePredicates : Obligations.RangePredicates :=
  ⟨fun op => ⟨badOp_iff, badOp_eq_msb op⟩, fun _ => badExpire_iff, fun _ _ _ _ _ => rfl,
    fun r _ hsign hnan => negAmount_of_positive hsign hnan r⟩

/-! ### VALIDATE repeated -/

/-- Everything that VALIDATE reads is the same in both states (10_state.md R39). -/
structure SameFrame (s t : State) : Prop where
  cfg_eq : t.cfg = s.cfg
  fcnt_eq : t.fcnt = s.fcnt
  fb_eq : t.fb = s.fb

theorem SameFrame.refl (s : State) : SameFrame s s := ⟨rfl, rfl, rfl⟩

theorem SameFrame.trans {s t u : State} (h : SameFrame s t) (h' : SameFrame t u) : SameFrame s u :=
  ⟨h'.cfg_eq.trans h.cfg_eq, h'.fcnt_eq.trans h.fcnt_eq, h'.fb_eq.trans h.fb_eq⟩

theorem sameFrame_of_step {s t : State} {e : HostEvent} {rest : List HostEvent} (hp : s.pending = e :: rest)
    (h : step s = .next t) (he : e.changesFrame = false) : SameFrame s t := by
  have heff := step_effect hp h
  obtain ⟨i, hi, hclear, hpush⟩ := changesFrame_eq_false he
  rw [hi] at heff
  have hpush' (w : Word) : some i ≠ some (.wrFrameData w) := fun h => hpush w (Option.some.inj h)
  obtain ⟨-, hcfg⟩ := heff.pending_cfg_eq
  exact ⟨hcfg, heff.fcnt_eq (by simp) (by simpa using hclear) hpush', heff.fb_eq hpush'⟩

/-- Events that change no frame change nothing that VALIDATE reads. -/
theorem run_sameFrame {s : State} {evs rest : List HostEvent} (hevs : ∀ e ∈ evs, e.changesFrame = false)
    (hp : s.pending = evs ++ rest) :
    ∃ t, Sys2Proof.core.run evs.length s = .next t ∧ t.pending = rest ∧ SameFrame s t := by
  induction evs generalizing s with
  | nil => exact ⟨s, run_zero s, hp, .refl s⟩
  | cons e evs ih =>
    obtain ⟨he, hrest⟩ := List.forall_mem_cons.1 hevs
    obtain ⟨u, hu⟩ := exists_step s
    obtain ⟨t, ht, htp, hsame⟩ := ih hrest (step_pending hp hu)
    exact ⟨t, (run_succ hu).trans ht, htp, (sameFrame_of_step hp hu he).trans hsame⟩

theorem changesFrame_of_validate {e : HostEvent} {v : Variant} (h : e.performs = some (.validate v)) :
    e.changesFrame = false := by
  simp [HostEvent.changesFrame, h]

/-- The RESULT, RVAR and result registers of `t` are those that VALIDATE `v` leaves at `s`. -/
structure ShowsOutcome (v : Variant) (s t : State) : Prop where
  result_eq : t.result = validateCode s.cfg v s.fcnt s.fb
  rvar_eq : t.rvar = v
  res_eq : t.res = validateFields s.cfg v s.fcnt s.fb

theorem showsOutcome_of_step {s t : State} {e : HostEvent} {v : Variant} {rest : List HostEvent}
    (he : e.performs = some (.validate v)) (hp : s.pending = e :: rest) (h : step s = .next t) :
    ShowsOutcome v s t := by
  have heff := step_effect hp h
  rw [he] at heff
  cases heff with
  | validate => exact ⟨rfl, rfl, rfl⟩
  | quiet _ _ hi => cases hi

theorem SameFrame.showsOutcome {v : Variant} {s t u : State} (h : SameFrame s t) (hu : ShowsOutcome v t u) :
    ShowsOutcome v s u := by
  obtain ⟨hresult, hrvar, hres⟩ := hu
  rw [h.cfg_eq, h.fcnt_eq, h.fb_eq] at hresult hres
  exact ⟨hresult, hrvar, hres⟩

/-- Settles O44: between the two VALIDATEs nothing that VALIDATE reads changes, and VALIDATE itself does not change it
either. -/
theorem repeatedValidateIsTheSame : Obligations.RepeatedValidateIsTheSame := by
  refine ⟨fun v v' s first second evs rest hfirst hsecond hevs hp => ?_, fun v v' s => ?_⟩
  · obtain ⟨a, ha⟩ := exists_step s
    obtain ⟨u, hu, hup, hsame⟩ := run_sameFrame hevs (step_pending hp ha)
    obtain ⟨b, hb⟩ := exists_step u
    have hshowA := showsOutcome_of_step hfirst hp ha
    have hsame := (sameFrame_of_step hp ha (changesFrame_of_validate hfirst)).trans hsame
    have hshowB := hsame.showsOutcome (showsOutcome_of_step hsecond hup hb)
    refine ⟨a, b, _, ha, ?_, exec_validate v' s, hshowB.result_eq, hshowB.rvar_eq, hshowB.res_eq, ?_⟩
    · calc Sys2Proof.core.run (evs.length + 2) s
          = Sys2Proof.core.run (evs.length + 1) a := run_succ ha
        _ = Sys2Proof.core.run 1 u := run_add hu
        _ = Sys2Proof.core.run 0 b := run_succ hb
    · rintro rfl
      exact ⟨hshowB.result_eq.trans hshowA.result_eq.symm, hshowB.rvar_eq.trans hshowA.rvar_eq.symm,
        hshowB.res_eq.trans hshowA.res_eq.symm⟩
  · exact ⟨_, exec_validate v s, rfl, rfl⟩

/-! ### The reads of STATUS and of the result registers, and the accesses that leave both -/

theorem exec_rdStatus (s : State) : exec .rdStatus s = .next (answer (statusWord s) s) := rfl

/-- STATUS from the bits of its four fields, which are all that it depends on (`statusWord_eq`). -/
def packStatus (sel err : BitVec 1) (var : BitVec 2) (code : BitVec 4) : Word :=
  (sel.zeroExtend 32 <<< 12) ||| (err.zeroExtend 32 <<< 8) ||| (var.zeroExtend 32 <<< 4) ||| code.zeroExtend 32

theorem statusWord_eq (s : State) :
    statusWord s = packStatus (crcSelBit s.crcSel) (BitVec.ofBool s.cmdErr) (rvarBits s.rvar) s.result.bits := rfl

/-- The fields do not overlap, and no other bit is set: all 256 values of the fields are tried. -/
theorem packStatus_fields : ∀ (sel err : BitVec 1) (var : BitVec 2) (code : BitVec 4),
    (packStatus sel err var code).extractLsb' 0 4 = code ∧ (packStatus sel err var code).extractLsb' 4 2 = var ∧
    (packStatus sel err var code).extractLsb' 6 2 = 0 ∧ (packStatus sel err var code).extractLsb' 8 1 = err ∧
    (packStatus sel err var code).extractLsb' 9 3 = 0 ∧ (packStatus sel err var code).extractLsb' 12 1 = sel ∧
    (packStatus sel err var code).extractLsb' 13 19 = 0 := by
  decide

/-- Settles O23: STATUS packs its four fields, and the two words named are those of the fields given. -/
theorem statusReadsItsFields : Obligations.StatusReadsItsFields := by
  refine ⟨fun s => ⟨statusWord s, exec_rdStatus s, ?_⟩, fun cfg fb => ?_⟩
  · obtain ⟨hresult, hrvar, hzero6, herr, hzero9, hsel, hzero13⟩ := packStatus_fields (crcSelBit s.crcSel)
      (BitVec.ofBool s.cmdErr) (rvarBits s.rvar) s.result.bits
    refine ⟨hresult, hrvar, hzero6, herr, hzero9, hsel, hzero13, fun hok hc hclear hcrcB => ?_⟩
    rw [statusWord_eq, hok, hc, hclear, hcrcB]
    decide
  · have hword : statusWord (State.afterReset cfg fb) = 0x0000000F := by
      rw [statusWord_eq, afterReset_crcSel, afterReset_cmdErr, afterReset_rvar, afterReset_result]
      decide
    rw [exec_rdStatus, hword, answer]

/-! ### The accesses that leave STATUS and the result registers -/

/-- Settles O25: the half that each row reads is bits 63:32 or bits 31:0, and a narrow register is zero-extended. -/
theorem resultRegisterReads : Obligations.ResultRegisterReads :=
  fun _ => ⟨rfl, rfl, rfl, rfl, rfl, rfl, rfl, rfl, rfl, rfl, rfl⟩

/-- Settles O20: each read is the encoding of its row, and the row answers 0. -/
theorem writeOnlyRegistersReadZero : Obligations.WriteOnlyRegistersReadZero :=
  ⟨decodeEncodeRoundTrip .rdCmd rfl, decodeEncodeRoundTrip .rdCrcData rfl, decodeEncodeRoundTrip .rdFrameData rfl,
    fun _ => ⟨rfl, rfl, rfl⟩⟩

theorem exec_clearErr (s : State) : exec .clearErr s = .next (okay (clearCmdErr s)) := rfl

theorem exec_illegalCommandWord (w : Word) (s : State) :
    exec (.illegalCommandWord w) s = .next (raiseCmdError s) := rfl

/-- Settles O16: the next states are `clearCmdErr` and `raiseCmdError`, which write CMDERR alone. -/
theorem errorFlagCommands : Obligations.ErrorFlagCommands :=
  fun w s => ⟨exec_clearErr s, exec_illegalCommandWord w s⟩

/-- Settles O21: each of the offsets decodes to its row of ignored writes, and each of these rows is `okay` alone. -/
theorem readOnlyWritesAreIgnored : Obligations.ReadOnlyWritesAreIgnored := by
  intro w s
  refine ⟨fun off hoff => ?_, fun i hi => ?_⟩
  · fin_cases hoff <;> rw [decode_writeAt rfl rfl] <;> rfl
  · fin_cases hi <;> rfl

end Sys2Proof.Machine
end

section
/-! # The two errors and the result codes (60_exceptions.md)

A bus error is a property of the access: `rejectedAt` says of its offset and size what `busErrorRow` says of
the decoded row. Who writes CMDERR and who writes the result is read off from `Effect`. -/

namespace Sys2Proof

/-! ### The causes of a bus error -/

/-- The three causes of 60_exceptions.md R200: the size, the alignment, or a reserved offset. -/
def rejectedAt (off : Offset) (size : AccessSize) : Bool :=
  size != .word || off.toNat % 4 != 0 || off.toNat == 0x18 || off.toNat == 0x1C || decide (0x4C ≤ off.toNat)

theorem rejectedAt_iff {off : Offset} {size : AccessSize} : rejectedAt off size = true ↔
    size ≠ .word ∨ off.toNat % 4 ≠ 0 ∨ off.toNat = 0x18 ∨ off.toNat = 0x1C ∨ 0x4C ≤ off.toNat := by
  simp only [rejectedAt, Bool.or_eq_true, bne_iff_ne, beq_iff_eq, decide_eq_true_eq, or_assoc]

/-- The five rows that end in a bus error. -/
def busErrorRow : Instr → Bool
  | .reservedOffset18 _ _ | .reservedOffset4C _ | .reservedOffset50 _ _ | .reservedOffset60 _ _
  | .nonWordOrMisaligned _ => true
  | _ => false

/-- The low two offset bits of R53 are the remainder by 4 of R200. -/
theorem mod_four_ne_zero_of_low_bits : ∀ off : Offset, off.extractLsb' 0 2 ≠ 0 → off.toNat % 4 ≠ 0 := by
  decide

theorem rejectedAt_of_not_admitted {a : Access} (h : a.admitted = false) : rejectedAt a.off a.size = true := by
  rw [Access.admitted, Bool.and_eq_false_iff, beq_eq_false_iff_ne, beq_eq_false_iff_ne] at h
  exact rejectedAt_iff.2 (h.imp_right fun hoff => .inl (mod_four_ne_zero_of_low_bits _ hoff))

theorem rejectedAt_register : ∀ off ∈ registerOffsets, rejectedAt off .word = false := by
  decide

theorem rejectedAt_reserved18 :
    ∀ k : BitVec 1, rejectedAt ((0b0011 : BitVec 4) ++ k ++ (0 : BitVec 2)) .word = true := by
  decide

theorem rejectedAt_reserved50 :
    ∀ k : BitVec 2, rejectedAt ((0b101 : BitVec 3) ++ k ++ (0 : BitVec 2)) .word = true := by
  decide

theorem rejectedAt_reserved60 :
    ∀ k : BitVec 3, rejectedAt ((0b11 : BitVec 2) ++ k ++ (0 : BitVec 2)) .word = true := by
  decide

/-- The access that a well-formed term is encoded as is rejected exactly if the term is of one of the five rows. -/
theorem rejectedAt_encode {i : Instr} (h : i.wellFormed = true) :
    rejectedAt (encode i).access.off (encode i).access.size = busErrorRow i := by
  cases i
  case nonWordOrMisaligned a => exact rejectedAt_of_not_admitted (a := a) (by simpa [Instr.wellFormed] using h)
  case reservedOffset18 d k => exact rejectedAt_reserved18 k
  case reservedOffset4C d => exact (by decide : rejectedAt 0x4C .word = true)
  case reservedOffset50 d k => exact rejectedAt_reserved50 k
  case reservedOffset60 d k => exact rejectedAt_reserved60 k
  all_goals exact rejectedAt_register _ (by simp [registerOffsets, encode, readAt, writeAt, Operation.access, cmdWrite])

theorem busErrorRow_decode_bus (a : Access) : busErrorRow (decode (.bus a)) = rejectedAt a.off a.size := by
  obtain ⟨hwf, henc⟩ := encodeDecodeRoundTrip (.bus a)
  rw [← rejectedAt_encode hwf, henc, Operation.access]

end Sys2Proof

namespace Sys2Proof.Machine

/-! ### How an access ends -/

theorem exec_of_busErrorRow {i : Instr} (hi : busErrorRow i = true) (s : State) :
    exec i s = .next (raiseBusError s) := by
  cases i
  case reservedOffset18 | reservedOffset4C | reservedOffset50 | reservedOffset60 | nonWordOrMisaligned => rfl
  all_goals cases hi

/-- Every row but the five ends OKAY, also a write to CMD, whatever its command. -/
theorem response_ne_busErr {i : Instr} {s t : State} (hi : busErrorRow i = false) (h : exec i s = .next t) :
    t.response ≠ .busErr := by
  cases i
  case wrCmd w =>
    rw [exec_wrCmd, decode] at h
    cases hc : decodeCommand w <;> rw [hc] at h <;> cases h <;> nofun
  case reservedOffset18 | reservedOffset4C | reservedOffset50 | reservedOffset60 | nonWordOrMisaligned => cases hi
  all_goals cases h; nofun

/-- Settles O17: a rejected access decodes to one of the five rows, which are `raiseBusError`, and any other access to a
row that ends OKAY. -/
theorem busErrorExactlyWhen : Obligations.BusErrorExactlyWhen := by
  intro a s
  rw [← rejectedAt_iff, ← busErrorRow_decode_bus]
  cases hrow : busErrorRow (decode (.bus a)) with
  | true => exact ⟨_, exec_of_busErrorRow hrow s, iff_of_true rfl rfl, fun _ => rfl⟩
  | false =>
    obtain ⟨t, ht⟩ := exists_exec (decode (.bus a)) s
    have hne := response_ne_busErr hrow ht
    exact ⟨t, ht, iff_of_false hne nofun, fun h => absurd h hne⟩

/-- Settles O18: the five rows are those of `busErrorRow`. -/
theorem rejectedAccessRowsChangeNothing : Obligations.RejectedAccessRowsChangeNothing :=
  fun _ _ _ _ _ s => ⟨exec_of_busErrorRow rfl s, exec_of_busErrorRow rfl s, exec_of_busErrorRow rfl s,
    exec_of_busErrorRow rfl s, exec_of_busErrorRow rfl s⟩

/-- Settles O4: with nothing pending the state stays, reset has a next state, and so has every row. -/
theorem stepNeverStops : Obligations.StepNeverStops := exists_step

/-! ### Who writes CMDERR -/

/-- Only an illegal command word sets CMDERR; only CLEAR.ERR and reset clear it. -/
theorem Effect.cmdErr_iff {s t : State} {p : Option Instr} (h : Effect s p t) : t.cmdErr = true ↔
    (∃ w, p = some (.illegalCommandWord w)) ∨ (s.cmdErr = true ∧ p ≠ none ∧ p ≠ some .clearErr) := by
  cases h
  case quiet i r hi =>
    have hillegal (w : Word) : i ≠ .illegalCommandWord w := by rintro rfl; cases hi
    have hclear : i ≠ .clearErr := by rintro rfl; cases hi
    simp [hillegal, hclear]
  all_goals simp

/-- Settles O46: `Effect.cmdErr_iff` for the row that the event performs, which is none for reset alone. -/
theorem cmdErrIsSetAndClearedAsStated : Obligations.CmdErrIsSetAndClearedAsStated := by
  intro s t e rest hp h
  rw [(step_effect hp h).cmdErr_iff, Ne, performs_eq_none]

/-! ### Who writes the result -/

theorem Effect.outcome_eq {s t : State} {p : Option Instr} (h : Effect s p t) (hr : p ≠ none)
    (hv : ∀ v, p ≠ some (.validate v)) : t.result = s.result ∧ t.rvar = s.rvar ∧ t.res = s.res := by
  cases h
  case reset => exact absurd rfl hr
  case validate v => exact absurd rfl (hv v)
  all_goals exact ⟨rfl, rfl, rfl⟩

/-- Settles O47: only reset and VALIDATE write the result, and a completed VALIDATE has a result. -/
theorem onlyValidateWritesTheResult : Obligations.OnlyValidateWritesTheResult := by
  intro s t e rest hp h hreset
  have hkeep : (∀ v, e.performs ≠ some (.validate v)) → t.result = s.result ∧ t.rvar = s.rvar ∧ t.res = s.res :=
    (step_effect hp h).outcome_eq (mt performs_eq_none.1 hreset)
  refine ⟨hkeep, fun hs => ?_⟩
  by_cases hv : ∃ v, e.performs = some (.validate v)
  · obtain ⟨v, hv⟩ := hv
    rw [(showsOutcome_of_step hv hp h).result_eq]
    exact validateCode_ne_noResult _ _ _ _
  · obtain ⟨hresult, -, -⟩ := hkeep (not_exists.1 hv)
    rwa [hresult]

/-! ### The numbers of the codes -/

/-- The codes are 0 to 5 and 0xF (60_exceptions.md R202, R203). -/
theorem resultCode_bits_range (r : ResultCode) : r.bits ≤ 0x5 ∨ r.bits = 0xF := by
  cases r <;> decide

theorem rvarBits_ne_three (v : Variant) : rvarBits v ≠ 3 := by
  cases v <;> decide

/-- Settles O24: each number is the one its definition gives, and no other code is given. -/
theorem resultCodesHaveTheirNumbers : Obligations.ResultCodesHaveTheirNumbers :=
  ⟨rfl, rfl, rfl, rfl, rfl, rfl, rfl, rfl, rfl, rfl, rfl, rfl, resultCode_bits_range, rvarBits_ne_three⟩

end Sys2Proof.Machine
end

section
/-! # Reset by software and idle steps (70_reset_and_hazards.md)

Three commands bring back four of the reset values (R230). Each writes its own fields alone, so what their sequence
leaves is read off field by field from the laws of the state. -/

namespace Sys2Proof.Machine

/-- Settles O6: with nothing pending there is nothing to fetch, so the step has no row to perform. -/
theorem noEventNoChange : Obligations.NoEventNoChange := fun _ => step_nil

theorem profileOf_crcB (cfg : Config) : profileOf cfg .crcB = cfg.crcB := rfl

/-- Settles O50: the next states are `setCrc`, `clearFrame` and `clearCmdErr`; the first writes CRC_ACC and CRCSEL with
what reset writes, the second FCNT and the third CMDERR, and none of them another field that the statement names. -/
theorem softwareReachesTheResetValues : Obligations.SoftwareReachesTheResetValues := by
  intro s
  refine ⟨_, _, _, exec_crcInit .crcB s, exec_frameClear _, exec_clearErr _, ?crcAcc, ?crcSel, ?fcnt, ?cmdErr, ?kept⟩
  case crcAcc => simp [profileOf_crcB]
  case crcSel | fcnt | cmdErr | kept => simp

end Sys2Proof.Machine
end
